-- ==== Sys2Proof/Word.lean ====
section
/-! DEFINITION. The widths of the ECC core's values: 32-bit bus words and commands, 256-bit registers, bytes of the
host's encodings (rules R6, R7, R33). -/

namespace Sys2Proof

/-- A value on the 32-bit bus, and a command word (rules R10, R46). -/
abbrev Word := BitVec 32

/-- The content of a 256-bit register (rules R6, R12). -/
abbrev Wide := BitVec 256

/-- A byte of a 32-byte or 65-byte encoding (rules R33, R34). -/
abbrev Byte := BitVec 8

end Sys2Proof
end

