-- ==== Sys2Proof/Config.lean ====
section
/-! DEFINITION. What is fixed for the machine: the curve constants (rules R2, R3), the implementation parameters (rule R6)
and the one OPEN parameter a rule names in the machine's behaviour, the base address of the window (rule R29). -/

namespace Sys2Proof

/-- The configuration record of rule R3: the field modulus, the coefficients, the group order and the base point. -/
structure Curve where
  p : Nat
  a : Nat
  b : Nat
  n : Nat
  genX : Nat
  genY : Nat
  deriving DecidableEq, Repr

/-- The constants this hardware ships with (rule R3; PRESUMED by the spec itself, log entry 12). -/
def Config.curve : Curve where
  p := 0xFFFFFFFFFFFFFFFFFFFFFFFFFFFFFFFFFFFFFFFFFFFFFFFFFFFFFFFEFFFFFC2F
  a := 0
  b := 7
  n := 0xFFFFFFFFFFFFFFFFFFFFFFFFFFFFFFFEBAAEDCE6AF48A03BBFD25E8CD0364141
  genX := 0x79BE667EF9DCBBAC55A06295CE870B07029BFCDB2DCE28D959F2815B16F81798
  genY := 0x483ADA7726A3C4655DA4FBFC0E1108A8FD17B448A68554199C47D08FFB10D4B8

/-- Rule R6: the entropy candidates a SIGN draws at most. -/
def Config.entMaxTries : Nat := 4

/-- Rule R19: what ID reads. -/
def Config.idValue : Word := 0x45434331#32

/-- Rule R19: what VERSION reads. -/
def Config.versionValue : Word := 0x00010000#32

/-- Rule R29: the window's size in bytes. -/
def Config.windowBytes : Nat := 4096

/-- BASE is OPEN and 4 KiB aligned (rules R6, R29): the number of its 4 KiB page, about which nothing is known. -/
opaque Config.basePage : Nat

/-- Rule R29: the window's base address. -/
def Config.base : Nat := Config.windowBytes * Config.basePage

end Sys2Proof
end

