-- ==== Sys2Proof/Syntax.lean ====
section
/-! DEFINITION. The thirteen commands of rule R49, one constructor each, with the operands in the order destination, first
source, second source (rule R52). -/

namespace Sys2Proof

/-- Rule R48: the modulus selector M of a field command, 0 for p and 1 for n. -/
inductive Modulus where
  | p
  | n
  deriving DecidableEq, Repr

/-- Rule R47, kind F: a field register F0..F15. -/
abbrev FReg := Fin 16

/-- Rule R47, kind P: a point register P0..P3. -/
abbrev PReg := Fin 4

/-- The commands of rule R49. -/
inductive Instr where
  /-- Rule R63. -/
  | nop
  /-- Rule R66. -/
  | fadd (m : Modulus) (rd ra rb : FReg)
  /-- Rule R67. -/
  | fsub (m : Modulus) (rd ra rb : FReg)
  /-- Rule R68. -/
  | fmul (m : Modulus) (rd ra rb : FReg)
  /-- Rule R69. -/
  | finv (m : Modulus) (rd ra : FReg)
  /-- Rule R80. -/
  | pdbl (rd ra : PReg)
  /-- Rule R81. -/
  | padd (rd ra rb : PReg)
  /-- Rule R82. -/
  | pchk (ra : PReg)
  /-- Rule R83. -/
  | peq (ra rb : PReg)
  /-- Rule R84. -/
  | pldg (rd : PReg)
  /-- Rule R89: the scalar is in field register `ra`, the point in point register `rb`. -/
  | smul (rd : PReg) (ra : FReg) (rb : PReg)
  /-- Rule R90. -/
  | derive (rd : PReg) (ra : FReg)
  /-- Rule R96: r goes to `rd` (kind E, even: see WellFormed), s to the register after it. -/
  | sign (rd ra rb : FReg)
  deriving DecidableEq, Repr

end Sys2Proof
end

