-- ==== Sys2Proof/WellFormed.lean ====
section
/-! DEFINITION. Which terms of `Instr` are commands. The register kinds F and P are bounds of their types; kind E, the even
first register of SIGN's destination pair, is the one check left (rules R47, R50 (e)). -/

namespace Sys2Proof

/-- Rule R47, kind E: legal only for an even field value. -/
def FReg.isPair (v : FReg) : Bool := v.val % 2 == 0

/-- A term of `Instr` that some command word stands for. -/
def Instr.wellFormed : Instr → Bool
  | .nop => true
  | .fadd _ _ _ _ => true
  | .fsub _ _ _ _ => true
  | .fmul _ _ _ _ => true
  | .finv _ _ _ => true
  | .pdbl _ _ => true
  | .padd _ _ _ => true
  | .pchk _ => true
  | .peq _ _ => true
  | .pldg _ => true
  | .smul _ _ _ => true
  | .derive _ _ => true
  | .sign rd _ _ => FReg.isPair rd

end Sys2Proof
end

