-- ==== Sys2Proof/Decode.lean ====
section
/-! DEFINITION. The command word: its fields (rule R46), the decoder, total on every 32-bit word and rejecting by name (rules
R47, R50), the encoder (rule R46), the opcode table's match and mask (rule R49) and the assembler text (rule R52). -/

namespace Sys2Proof

/-- Why a word is illegal: the five cases of rule R50. Whichever it is, the command ends with ILLEGAL_CMD (rule R61). -/
inductive Illegal where
  /-- (a) OPC is not one of the thirteen values (rule R51). -/
  | reservedOpcode
  /-- (b) one of bits 31:21 is 1. -/
  | reservedBits
  /-- (c) a field of kind 0 is not 0. -/
  | unusedField
  /-- (d) a field of kind P is 4 or more. -/
  | pointIndex
  /-- (e) the RD field of SIGN is odd. -/
  | oddPair
  deriving DecidableEq, Repr

/-! ### The fields of a word (rule R46) -/

def fieldOpc (w : Word) : BitVec 8 := w.extractLsb' 0 8
def fieldRd (w : Word) : BitVec 4 := w.extractLsb' 8 4
def fieldRa (w : Word) : BitVec 4 := w.extractLsb' 12 4
def fieldRb (w : Word) : BitVec 4 := w.extractLsb' 16 4
def fieldM (w : Word) : BitVec 1 := w.extractLsb' 20 1
def fieldRes (w : Word) : BitVec 11 := w.extractLsb' 21 11

/-! ### Operand kinds (rule R47) -/

/-- Kind F. -/
def kindF (v : BitVec 4) : FReg := v.toFin

/-- Kind P: legal only for 0..3. -/
def kindP (v : BitVec 4) : Except Illegal PReg :=
  if h : v.toNat < 4 then .ok ⟨v.toNat, h⟩ else .error .pointIndex

/-- Kind E: legal only for an even value. -/
def kindE (v : BitVec 4) : Except Illegal FReg :=
  if FReg.isPair v.toFin then .ok v.toFin else .error .oddPair

/-- Kind 0: the field must be 0. -/
def kindZero {k : Nat} (v : BitVec k) : Except Illegal Unit :=
  if v = 0#k then .ok () else .error .unusedField

/-- Kind M (rule R48). -/
def kindM (v : BitVec 1) : Modulus := if v = 0#1 then .p else .n

/-! ### Decode (rules R49, R50) -/

/-- The row a word's OPC names, with its operand fields read by their kinds. -/
def decodeRow (w : Word) : Except Illegal Instr :=
  match fieldOpc w with
  | 0x00#8 => do
      kindZero (fieldRd w); kindZero (fieldRa w); kindZero (fieldRb w); kindZero (fieldM w)
      .ok .nop
  | 0x01#8 => .ok (.fadd (kindM (fieldM w)) (kindF (fieldRd w)) (kindF (fieldRa w)) (kindF (fieldRb w)))
  | 0x02#8 => .ok (.fsub (kindM (fieldM w)) (kindF (fieldRd w)) (kindF (fieldRa w)) (kindF (fieldRb w)))
  | 0x03#8 => .ok (.fmul (kindM (fieldM w)) (kindF (fieldRd w)) (kindF (fieldRa w)) (kindF (fieldRb w)))
  | 0x04#8 => do
      kindZero (fieldRb w)
      .ok (.finv (kindM (fieldM w)) (kindF (fieldRd w)) (kindF (fieldRa w)))
  | 0x08#8 => do
      kindZero (fieldRb w); kindZero (fieldM w)
      .ok (.pdbl (← kindP (fieldRd w)) (← kindP (fieldRa w)))
  | 0x09#8 => do
      kindZero (fieldM w)
      .ok (.padd (← kindP (fieldRd w)) (← kindP (fieldRa w)) (← kindP (fieldRb w)))
  | 0x0A#8 => do
      kindZero (fieldRd w); kindZero (fieldRb w); kindZero (fieldM w)
      .ok (.pchk (← kindP (fieldRa w)))
  | 0x0B#8 => do
      kindZero (fieldRd w); kindZero (fieldM w)
      .ok (.peq (← kindP (fieldRa w)) (← kindP (fieldRb w)))
  | 0x0C#8 => do
      kindZero (fieldRa w); kindZero (fieldRb w); kindZero (fieldM w)
      .ok (.pldg (← kindP (fieldRd w)))
  | 0x10#8 => do
      kindZero (fieldM w)
      .ok (.smul (← kindP (fieldRd w)) (kindF (fieldRa w)) (← kindP (fieldRb w)))
  | 0x11#8 => do
      kindZero (fieldRb w); kindZero (fieldM w)
      .ok (.derive (← kindP (fieldRd w)) (kindF (fieldRa w)))
  | 0x18#8 => do
      kindZero (fieldM w)
      .ok (.sign (← kindE (fieldRd w)) (kindF (fieldRa w)) (kindF (fieldRb w)))
  | _ => .error .reservedOpcode

/-- Rule R50: total on every word; a word with a reserved bit set is illegal whatever its OPC. -/
def decode (w : Word) : Except Illegal Instr :=
  if fieldRes w = 0#11 then decodeRow w else .error .reservedBits

/-- The host's question: the instruction read from `w`'s low `nbits` bits, laid out as one CMD write (rule R46: a command is
one 32-bit word, delivered as a value, so it has no byte order of its own). Bits above `nbits` are 0. -/
def decodeTableWord (nbits w : Nat) : Option Instr :=
  match decode (BitVec.ofNat 32 (w % 2 ^ nbits)) with
  | .ok i => some i
  | .error _ => none

/-! ### Encode (rule R46) -/

/-- Rule R46: `encode(OPC, RD, RA, RB, M)`. -/
def assemble (opc : BitVec 8) (rd ra rb : BitVec 4) (m : BitVec 1) : Word :=
  opc.setWidth 32 ||| (rd.setWidth 32 <<< 8) ||| (ra.setWidth 32 <<< 12) ||| (rb.setWidth 32 <<< 16)
    ||| (m.setWidth 32 <<< 20)

/-- A field register's 4-bit field. -/
def bitsF (r : FReg) : BitVec 4 := BitVec.ofFin r

/-- A point register's 4-bit field: bits 3:2 are 0 (rule R47). -/
def bitsP (r : PReg) : BitVec 4 := BitVec.ofNat 4 r.val

/-- The M bit (rule R48). -/
def bitsM (m : Modulus) : BitVec 1 :=
  match m with
  | .p => 0#1
  | .n => 1#1

/-- The word of a command (rules R46, R49). -/
def encode : Instr → Word
  | .nop => assemble 0x00#8 0#4 0#4 0#4 0#1
  | .fadd m rd ra rb => assemble 0x01#8 (bitsF rd) (bitsF ra) (bitsF rb) (bitsM m)
  | .fsub m rd ra rb => assemble 0x02#8 (bitsF rd) (bitsF ra) (bitsF rb) (bitsM m)
  | .fmul m rd ra rb => assemble 0x03#8 (bitsF rd) (bitsF ra) (bitsF rb) (bitsM m)
  | .finv m rd ra => assemble 0x04#8 (bitsF rd) (bitsF ra) 0#4 (bitsM m)
  | .pdbl rd ra => assemble 0x08#8 (bitsP rd) (bitsP ra) 0#4 0#1
  | .padd rd ra rb => assemble 0x09#8 (bitsP rd) (bitsP ra) (bitsP rb) 0#1
  | .pchk ra => assemble 0x0A#8 0#4 (bitsP ra) 0#4 0#1
  | .peq ra rb => assemble 0x0B#8 0#4 (bitsP ra) (bitsP rb) 0#1
  | .pldg rd => assemble 0x0C#8 (bitsP rd) 0#4 0#4 0#1
  | .smul rd ra rb => assemble 0x10#8 (bitsP rd) (bitsF ra) (bitsP rb) 0#1
  | .derive rd ra => assemble 0x11#8 (bitsP rd) (bitsF ra) 0#4 0#1
  | .sign rd ra rb => assemble 0x18#8 (bitsF rd) (bitsF ra) (bitsF rb) 0#1

/-! ### The opcode table (rule R49) -/

/-- A row of rule R49: a word `w` is this command iff `w &&& mask = bits`. -/
structure Row where
  mnemonic : String
  bits : Word
  mask : Word
  deriving DecidableEq, Repr

/-- The row of a command. -/
def Instr.row : Instr → Row
  | .nop => ⟨"NOP", 0x00000000#32, 0xFFFFFFFF#32⟩
  | .fadd _ _ _ _ => ⟨"FADD", 0x00000001#32, 0xFFE000FF#32⟩
  | .fsub _ _ _ _ => ⟨"FSUB", 0x00000002#32, 0xFFE000FF#32⟩
  | .fmul _ _ _ _ => ⟨"FMUL", 0x00000003#32, 0xFFE000FF#32⟩
  | .finv _ _ _ => ⟨"FINV", 0x00000004#32, 0xFFEF00FF#32⟩
  | .pdbl _ _ => ⟨"PDBL", 0x00000008#32, 0xFFFFCCFF#32⟩
  | .padd _ _ _ => ⟨"PADD", 0x00000009#32, 0xFFFCCCFF#32⟩
  | .pchk _ => ⟨"PCHK", 0x0000000A#32, 0xFFFFCFFF#32⟩
  | .peq _ _ => ⟨"PEQ", 0x0000000B#32, 0xFFFCCFFF#32⟩
  | .pldg _ => ⟨"PLDG", 0x0000000C#32, 0xFFFFFCFF#32⟩
  | .smul _ _ _ => ⟨"SMUL", 0x00000010#32, 0xFFFC0CFF#32⟩
  | .derive _ _ => ⟨"DERIVE", 0x00000011#32, 0xFFFF0CFF#32⟩
  | .sign _ _ _ => ⟨"SIGN", 0x00000018#32, 0xFFF001FF#32⟩

/-- The thirteen rows, in the table's order. -/
def opcodeTable : List Row :=
  [Instr.row .nop, Instr.row (.fadd .p 0 0 0), Instr.row (.fsub .p 0 0 0), Instr.row (.fmul .p 0 0 0),
    Instr.row (.finv .p 0 0), Instr.row (.pdbl 0 0), Instr.row (.padd 0 0 0), Instr.row (.pchk 0),
    Instr.row (.peq 0 0), Instr.row (.pldg 0), Instr.row (.smul 0 0 0), Instr.row (.derive 0 0),
    Instr.row (.sign 0 0 0)]

/-! ### Assembler text (rule R52), with the modulus suffix written out -/

/-- `F0`..`F15`. -/
def asmF (r : FReg) : String := "F" ++ Nat.repr r.val

/-- `P0`..`P3`. -/
def asmP (r : PReg) : String := "P" ++ Nat.repr r.val

/-- The suffix `.P` or `.N`. -/
def asmM (m : Modulus) : String :=
  match m with
  | .p => ".P"
  | .n => ".N"

/-- The text of a command. -/
def Instr.asm : Instr → String
  | .nop => "NOP"
  | .fadd m rd ra rb => "FADD" ++ asmM m ++ " " ++ asmF rd ++ ", " ++ asmF ra ++ ", " ++ asmF rb
  | .fsub m rd ra rb => "FSUB" ++ asmM m ++ " " ++ asmF rd ++ ", " ++ asmF ra ++ ", " ++ asmF rb
  | .fmul m rd ra rb => "FMUL" ++ asmM m ++ " " ++ asmF rd ++ ", " ++ asmF ra ++ ", " ++ asmF rb
  | .finv m rd ra => "FINV" ++ asmM m ++ " " ++ asmF rd ++ ", " ++ asmF ra
  | .pdbl rd ra => "PDBL " ++ asmP rd ++ ", " ++ asmP ra
  | .padd rd ra rb => "PADD " ++ asmP rd ++ ", " ++ asmP ra ++ ", " ++ asmP rb
  | .pchk ra => "PCHK " ++ asmP ra
  | .peq ra rb => "PEQ " ++ asmP ra ++ ", " ++ asmP rb
  | .pldg rd => "PLDG " ++ asmP rd
  | .smul rd ra rb => "SMUL " ++ asmP rd ++ ", " ++ asmF ra ++ ", " ++ asmP rb
  | .derive rd ra => "DERIVE " ++ asmP rd ++ ", " ++ asmF ra
  | .sign rd ra rb => "SIGN " ++ asmF rd ++ ", " ++ asmF ra ++ ", " ++ asmF rb

end Sys2Proof
end

