-- ==== Sys2Proof/Machine/State.lean ====
section
/-! DEFINITION. The state of the ECC core (rules R12 to R28), the events that reach it from outside (rules R10, R54, R94, R115),
the reasons a step can stop, and the state after reset (rule R28). -/

namespace Sys2Proof.Machine

/-- The error codes of rule R101 other than 0 (no error, held as `none`). Codes 6 to 15 are never produced. -/
inductive CmdError where
  /-- 1: a scalar 0 or ≥ n. -/
  | invalidScalar
  /-- 2: the inverse of a value ≡ 0 under the active modulus. -/
  | divZero
  /-- 3: r or s computed as 0. -/
  | sigDegenerate
  /-- 4: the command word is illegal. -/
  | illegalCmd
  /-- 5: every entropy candidate was out of range. -/
  | entropyFail
  deriving DecidableEq, Repr

/-- One bus access by a bus master (rules R10, R36): the byte address, the width in bytes, and the value of a write (whose
width the block checks before it looks at the value). -/
inductive Access where
  | read (addr bytes : Nat)
  | write (addr bytes : Nat) (v : Word)
  deriving DecidableEq, Repr

/-- What can happen next at the block (rules R40, R54, R94, R115). -/
inductive Event where
  /-- A bus access reaches the block (rule R40). -/
  | access (a : Access)
  /-- The engine has its turn: the accepted command commits if its commit is enabled (rules R58, R60). -/
  | engine
  /-- The entropy port offers a candidate (rule R94). -/
  | candidate (w : Wide)
  /-- The reset input is asserted (`true`) or released (`false`) (rule R115). -/
  | resetPin (asserted : Bool)
  deriving DecidableEq, Repr

/-- Every piece of state the spec gives the block, and the model's own `inbox` and `resp`. -/
structure State where
  /-- F0..F15 (rule R12). -/
  f : Vector Wide 16
  /-- X[0..3] (rule R13). -/
  x : Vector Wide 4
  /-- Y[0..3] (rule R13). -/
  y : Vector Wide 4
  /-- INF[0..3] (rules R13, R24). -/
  inf : Vector Bool 4
  /-- NONCE (rule R17). -/
  nonce : Wide
  /-- CTRL.IE (rule R20). -/
  ie : Bool
  /-- CTRL.NSRC (rule R20). -/
  nsrc : Bool
  /-- STATUS.BUSY, the engine phase (rules R21, R26). -/
  busy : Bool
  /-- STATUS.DONE (rule R21). -/
  done : Bool
  /-- STATUS.ERR (rules R21, R101). -/
  err : Option CmdError
  /-- STATUS.ONCURVE (rules R21, R22). -/
  onCurveFlag : Bool
  /-- STATUS.EQ (rules R21, R22). -/
  eqFlag : Bool
  /-- STATUS.WERR (rules R21, R56). -/
  werr : Bool
  /-- CMDLAST (rule R23). -/
  cmdLast : Word
  /-- LCMD, hidden (rules R26, R55); 0 while idle (log entry 11). -/
  lcmd : Word
  /-- LNSRC, hidden (rules R26, R55); 0 while idle (log entry 11). -/
  lnsrc : Bool
  /-- The entropy candidates the executing SIGN has drawn, oldest first, hidden (rules R26, R94; DEDUCED, log entry
  7). -/
  draws : List Wide
  /-- The reset input is asserted (rule R115). -/
  inReset : Bool
  /-- The model's own: the events to come, in the order they reach the block (rules R40, R54; log entry 1). -/
  inbox : List Event
  /-- The model's own: the word the block answered to the last access, `none` where it answered none (log entry 3). -/
  resp : Option Word
  deriving DecidableEq, Repr

/-- The accesses that stop the host program (rule R36: "a model treats such an access as a fault of the host program, never as
a value"). No command raises one. -/
inductive Fault where
  /-- Raised by a bus access that is not 32 bits wide (rule R36; log entry 10). Safe: the block itself is unchanged and could go on. -/
  | badWidth
  /-- Raised by a bus access whose offset is not a multiple of 4 (rule R37). Safe: as `badWidth`. -/
  | misaligned
  /-- Raised by a bus access whose address is not in the block's window (rule R29). Safe: the block does not see it. -/
  | outsideWindow
  deriving DecidableEq, Repr

/-- The reasons a step could refuse. -/
inductive Refusal where
  /-- Raised by an arm of `exec` that has no meaning yet: no arm raises it. Safe: nothing is claimed of the command. -/
  | notModelled (mnemonic : String)
  deriving DecidableEq, Repr

/-- The machine right after reset (rules R28, R115), with no event to come and no bus answer yet. -/
def State.reset : State where
  f := Vector.replicate 16 0#256
  x := Vector.replicate 4 0#256
  y := Vector.replicate 4 0#256
  inf := Vector.replicate 4 true
  nonce := 0#256
  ie := false
  nsrc := false
  busy := false
  done := false
  err := none
  onCurveFlag := false
  eqFlag := false
  werr := false
  cmdLast := 0#32
  lcmd := 0#32
  lnsrc := false
  draws := []
  inReset := false
  inbox := []
  resp := none

end Sys2Proof.Machine
end

