-- ==== Sys2Proof/Machine/Arith.lean ====
section
/-! DEFINITION. The pure functions every command rule uses (rule R11), over a curve record: `red`, `inv` (rules R64, R65),
`ecDbl`, `ecAdd`, `onCurve`, `ptEq` (rules R72 to R75), `ecMul` (rule R86) and `signCore` (rule R92). Values are
mathematical integers (rule R7); a raised error is `Except.error` (rule R9). -/

namespace Sys2Proof.Machine

/-- Rule R8: `a mod m` for any integer `a`, the residue in [0, m). -/
def imod (a : Int) (m : Nat) : Nat := (a % (m : Int)).toNat

/-! ### Field functions -/

/-- Rule R64. -/
def red (v m : Nat) : Nat := v % m

/-- The square-and-multiply steps of `powMod` over bits `i-1`..`0` of `e`. -/
def powModLoop (x e m : Nat) : Nat → Nat → Nat
  | 0, acc => acc
  | i + 1, acc => powModLoop x e m i (if e.testBit i then acc * acc % m * x % m else acc * acc % m)

/-- Rule R8: `x^e mod m`, computed bit by bit so that it can be evaluated (`powMod_eq` in Laws). -/
def powMod (x e m : Nat) : Nat := powModLoop x e m (Nat.log2 e + 1) (1 % m)

/-- Rule R65: the inverse under modulus `m`, by Fermat's exponent. -/
def inv (x m : Nat) : Except CmdError Nat :=
  if x % m = 0 then .error .divZero else .ok (powMod (x % m) (m - 2) m)

/-! ### Points -/

/-- Rule R14: a point value. -/
inductive Point where
  | inf
  | aff (x y : Nat)
  deriving DecidableEq, Repr

/-- Rule R72. -/
def ecDbl (c : Curve) : Point → Except CmdError Point
  | .inf => .ok .inf
  | .aff x y =>
    if y = 0 then .ok .inf
    else
      match inv (2 * y) c.p with
      | .error e => .error e
      | .ok i =>
        let s : Nat := (3 * x ^ 2 + c.a) * i % c.p
        let x3 : Nat := imod ((s : Int) ^ 2 - 2 * (x : Int)) c.p
        let y3 : Nat := imod ((s : Int) * ((x : Int) - (x3 : Int)) - (y : Int)) c.p
        .ok (.aff x3 y3)

/-- Rule R73, with its tests in the stated order. -/
def ecAdd (c : Curve) : Point → Point → Except CmdError Point
  | .inf, q => .ok q
  | .aff x1 y1, .inf => .ok (.aff x1 y1)
  | .aff x1 y1, .aff x2 y2 =>
    if x1 = x2 ∧ (y1 ≠ y2 ∨ y1 = 0) then .ok .inf
    else if x1 = x2 ∧ y1 = y2 then ecDbl c (.aff x1 y1)
    else
      match inv (imod ((x2 : Int) - (x1 : Int)) c.p) c.p with
      | .error e => .error e
      | .ok i =>
        let s : Nat := imod (((y2 : Int) - (y1 : Int)) * (i : Int)) c.p
        let x3 : Nat := imod ((s : Int) ^ 2 - (x1 : Int) - (x2 : Int)) c.p
        let y3 : Nat := imod ((s : Int) * ((x1 : Int) - (x3 : Int)) - (y1 : Int)) c.p
        .ok (.aff x3 y3)

/-- Rule R74. -/
def onCurve (c : Curve) : Point → Bool
  | .inf => true
  | .aff x y => imod ((y : Int) ^ 2 - ((x : Int) ^ 3 + (c.a : Int) * (x : Int) + (c.b : Int))) c.p == 0

/-- Rule R75: structural equality. -/
def ptEq : Point → Point → Bool
  | .inf, .inf => true
  | .inf, .aff _ _ => false
  | .aff _ _, .inf => false
  | .aff x1 y1, .aff x2 y2 => x1 == x2 && y1 == y2

/-- The base point (rule R2). -/
def basePoint (c : Curve) : Point := .aff c.genX c.genY

/-! ### Scalars -/

/-- Rule R85: `k` is a valid scalar, read as it is, not reduced. -/
def validScalar (c : Curve) (k : Nat) : Bool := decide (1 ≤ k) && decide (k < c.n)

/-- The step of rule R86 for one bit: double, then add the point if the bit is 1. -/
def ecMulStep (c : Curve) (q : Point) (bit : Bool) (acc : Point) : Except CmdError Point :=
  match ecDbl c acc with
  | .error e => .error e
  | .ok d => if bit then ecAdd c d q else .ok d

/-- The loop of rule R86 over bits `i-1`..`0` of `k`. -/
def ecMulLoop (c : Curve) (k : Nat) (q : Point) : Nat → Point → Except CmdError Point
  | 0, acc => .ok acc
  | i + 1, acc =>
    match ecMulStep c q (k.testBit i) acc with
    | .error e => .error e
    | .ok acc' => ecMulLoop c k q i acc'

/-- Rule R86: double-and-add from the most significant 1 bit of `k`, whose index is `Nat.log2 k`. -/
def ecMul (c : Curve) (k : Nat) (q : Point) : Except CmdError Point :=
  ecMulLoop c k q (Nat.log2 k) q

/-! ### Signing -/

/-- Rule R92, step 4: `s`. -/
def signS (c : Curve) (d k z r i : Nat) : Nat :=
  imod (((d : Int) * (r : Int) - (k : Int) * (z : Int)) * (i : Int)) c.n

/-- Rule R92. The branch `R = Inf` is never taken on this hardware's curve (rule R88 (e)); the model reports it as r = 0
(DESIGN CHOICE, log entry 8). -/
def signCore (c : Curve) (d k z : Nat) : Except CmdError (Nat × Nat) :=
  match ecMul c k (basePoint c) with
  | .error e => .error e
  | .ok .inf => .error .sigDegenerate
  | .ok (.aff x _) =>
    let r : Nat := x % c.n
    if r = 0 then .error .sigDegenerate
    else
      match inv r c.n with
      | .error e => .error e
      | .ok i =>
        let s : Nat := signS c d k z r i
        if s = 0 then .error .sigDegenerate else .ok (r, s)

end Sys2Proof.Machine
end

