-- ==== Sys2Proof/Machine/Operands.lean ====
section
/-! DEFINITION. Reading and writing the registers a command names (rules R9, R15, R16, R47, R48), and the eight bus words of a
256-bit register (rule R32). -/

namespace Sys2Proof.Machine

/-- Rule R48: the active modulus. -/
def activeModulus (m : Modulus) : Nat :=
  match m with
  | .p => Config.curve.p
  | .n => Config.curve.n

/-- F[i] (rule R9). -/
def State.readF (s : State) (i : FReg) : Wide := s.f[i.val]

/-- F[i] as an unsigned integer, not reduced (rules R12, R85). -/
def State.scalarF (s : State) (i : FReg) : Nat := (s.readF i).toNat

/-- F[i] read through `red` under a modulus (rule R64). -/
def State.redF (s : State) (i : FReg) (m : Nat) : Nat := red (s.readF i).toNat m

/-- F[i] <- v (rule R9). -/
def State.writeF (s : State) (i : FReg) (v : Wide) : State := { s with f := s.f.set i.val v }

/-- `readP(j)` (rule R15): the coordinates reduced modulo p, ignored where INF is 1. -/
def State.readP (s : State) (j : PReg) : Point :=
  if s.inf[j.val] then .inf
  else .aff (s.x[j.val].toNat % Config.curve.p) (s.y[j.val].toNat % Config.curve.p)

/-- `writeP(j, Q)` (rule R16). -/
def State.writeP (s : State) (j : PReg) (q : Point) : State :=
  match q with
  | .inf =>
    { s with
      inf := s.inf.set j.val true
      x := s.x.set j.val 0#256
      y := s.y.set j.val 0#256 }
  | .aff x y =>
    { s with
      inf := s.inf.set j.val false
      x := s.x.set j.val (BitVec.ofNat 256 x)
      y := s.y.set j.val (BitVec.ofNat 256 y) }

/-- Rule R32: word `k` of a 256-bit register, the most significant word first. -/
def wideWord (r : Wide) (k : Fin 8) : Word := r.extractLsb' (224 - 32 * k.val) 32

/-- Rule R32: the register with word `k` replaced and its other 224 bits unchanged. -/
def wideSetWord (r : Wide) (k : Fin 8) (v : Word) : Wide :=
  (r &&& ~~~(0xFFFFFFFF#256 <<< (224 - 32 * k.val))) ||| (v.setWidth 256 <<< (224 - 32 * k.val))

/-- A host write of one word of F[i] (rules R12, R32). -/
def State.hostF (s : State) (i : FReg) (k : Fin 8) (v : Word) : State :=
  { s with f := s.f.set i.val (wideSetWord s.f[i.val] k v) }

/-- A host write of one word of X[j]: INF[j] is unchanged (rules R13, R32). -/
def State.hostX (s : State) (j : PReg) (k : Fin 8) (v : Word) : State :=
  { s with x := s.x.set j.val (wideSetWord s.x[j.val] k v) }

/-- A host write of one word of Y[j]: INF[j] is unchanged (rules R13, R32). -/
def State.hostY (s : State) (j : PReg) (k : Fin 8) (v : Word) : State :=
  { s with y := s.y.set j.val (wideSetWord s.y[j.val] k v) }

/-- A host write of one word of NONCE (rules R17, R32). -/
def State.hostNonce (s : State) (k : Fin 8) (v : Word) : State :=
  { s with nonce := wideSetWord s.nonce k v }

/-- A host write of PINF: all four flags from bits 3:0 (rule R24). -/
def State.hostPinf (s : State) (v : Word) : State :=
  { s with inf := #v[v.getLsbD 0, v.getLsbD 1, v.getLsbD 2, v.getLsbD 3] }

end Sys2Proof.Machine
end

