-- ==== Sys2Proof/Machine/Flags.lean ====
section
/-! DEFINITION. The status and control words as the bus reads them (rules R20, R21, R24, R101), the interrupt output (rule
R106) and the two result flags (rule R22). -/

namespace Sys2Proof.Machine

/-- A one-bit field at bit `i` of a bus word. -/
def bitAt (b : Bool) (i : Nat) : Word := if b then 1#32 <<< i else 0#32

/-- The code of STATUS.ERR (rule R101). -/
def errCode (e : Option CmdError) : BitVec 4 :=
  match e with
  | none => 0#4
  | some .invalidScalar => 1#4
  | some .divZero => 2#4
  | some .sigDegenerate => 3#4
  | some .illegalCmd => 4#4
  | some .entropyFail => 5#4

/-- CTRL as read (rule R20): bit 31 and the reserved bits are 0. -/
def State.ctrlWord (s : State) : Word := bitAt s.ie 0 ||| bitAt s.nsrc 1

/-- STATUS as read (rule R21): the reserved bits are 0. -/
def State.statusWord (s : State) : Word :=
  bitAt s.busy 0 ||| bitAt s.done 1 ||| ((errCode s.err).setWidth 32 <<< 4) ||| bitAt s.onCurveFlag 8
    ||| bitAt s.eqFlag 9 ||| bitAt s.werr 16

/-- PINF as read (rule R24): bit j is INF[j], the reserved bits are 0. -/
def State.pinfWord (s : State) : Word :=
  bitAt s.inf[0] 0 ||| bitAt s.inf[1] 1 ||| bitAt s.inf[2] 2 ||| bitAt s.inf[3] 3

/-- The interrupt output, a level (rule R106). -/
def State.irq (s : State) : Bool := s.done && s.ie

/-- The flag updates of a command without error (rules R22, R58): `none` leaves the flag unchanged. -/
def State.setFlags (s : State) (onCurve eq : Option Bool) : State :=
  { s with onCurveFlag := onCurve.getD s.onCurveFlag, eqFlag := eq.getD s.eqFlag }

/-- A host write to STATUS (rule R21): write 1 to clear DONE (bit 1) and WERR (bit 16), every other bit ignored. -/
def State.hostStatus (s : State) (v : Word) : State :=
  { s with done := s.done && !v.getLsbD 1, werr := s.werr && !v.getLsbD 16 }

end Sys2Proof.Machine
end

