-- ==== Sys2Proof/Machine/Ops.lean ====
section
/-! DEFINITION. The block's shared operations: acceptance (rule R55), staged writes and the one commit every command ends in,
with or without an error (rules R57, R58, R61: this block's errors are codes, it has no trap, rule R105), and the two resets
(rules R115, R116). -/

namespace Sys2Proof.Machine

/-! ### Acceptance -/

/-- Rule R55: the host's write of `w` to CMD while idle. No candidate is drawn yet (rule R26). -/
def State.accept (s : State) (w : Word) : State :=
  { s with
    cmdLast := w
    lcmd := w
    lnsrc := s.nsrc
    busy := true
    done := false
    err := none
    draws := [] }

/-! ### Commit -/

/-- A staged register write of a command (rule R9). -/
inductive Write where
  | field (i : FReg) (v : Nat)
  | point (j : PReg) (q : Point)
  deriving DecidableEq, Repr

/-- What a command without error stages (rule R57): its writes, in order, and its flag values. -/
structure Staged where
  writes : List Write
  onCurve : Option Bool
  eq : Option Bool
  deriving DecidableEq, Repr

/-- Stages one field register. -/
def stageF (i : FReg) (v : Nat) : Staged := ⟨[.field i v], none, none⟩

/-- Stages one point register. -/
def stageP (j : PReg) (q : Point) : Staged := ⟨[.point j q], none, none⟩

/-- Applies one staged write (rules R9, R16). -/
def State.applyWrite (s : State) (w : Write) : State :=
  match w with
  | .field i v => s.writeF i (BitVec.ofNat 256 v)
  | .point j q => s.writeP j q

/-- Applies the staged writes in order (rule R58). -/
def State.applyWrites (s : State) (ws : List Write) : State :=
  match ws with
  | [] => s
  | w :: rest => (s.applyWrite w).applyWrites rest

/-- The end of every commit (rule R58): ERR, BUSY, DONE. The latches and the candidates drawn do not survive it (rule R26): the
engine is left as reset leaves it (DESIGN CHOICE of the value, log entry 11). -/
def State.finish (s : State) (e : Option CmdError) : State :=
  { s with
    err := e
    busy := false
    done := true
    lcmd := 0#32
    lnsrc := false
    draws := [] }

/-- Rule R58, for every command but SIGN. -/
def State.commit (s : State) (r : Except CmdError Staged) : State :=
  match r with
  | .ok st => ((s.applyWrites st.writes).setFlags st.onCurve st.eq).finish none
  | .error e => s.finish (some e)

/-- Rule R58 for a decoded SIGN: NONCE <- 0 as well, whatever the outcome (rule R95). -/
def State.commitSign (s : State) (r : Except CmdError Staged) : State :=
  { s.commit r with nonce := 0#256 }

/-- Rule R61: the commit of an illegal word. -/
def State.commitIllegal (s : State) : State := s.commit (.error .illegalCmd)

/-- A command's outcome as a step of the machine. -/
def commitNext (s : State) (r : Except CmdError Staged) : Host.Outcome State Fault Refusal :=
  .next (s.commit r)

/-- A point result as the outcome of a command that writes point register `j`. -/
def pointResult (j : PReg) (r : Except CmdError Point) : Except CmdError Staged :=
  match r with
  | .ok q => .ok (stageP j q)
  | .error e => .error e

/-- A field result as the outcome of a command that writes field register `i`. -/
def fieldResult (i : FReg) (r : Except CmdError Nat) : Except CmdError Staged :=
  match r with
  | .ok v => .ok (stageF i v)
  | .error e => .error e

/-- Rules R85, R89, R90: scalar multiplication with its range check, which comes before any group operation. -/
def checkedMul (c : Curve) (k : Nat) (q : Point) : Except CmdError Point :=
  if validScalar c k then ecMul c k q else .error .invalidScalar

/-! ### Reset -/

/-- Rules R28, R116: every register takes its reset value, an executing command is abandoned. The events to come are not
state of the block and stay. -/
def State.softReset (s : State) : State := { State.reset with inbox := s.inbox }

/-- Rule R115: the reset input changes to `asserted`. The state holds its reset values from the assertion on (DESIGN
CHOICE, log entry 6). -/
def State.resetPin (s : State) (asserted : Bool) : State :=
  { State.reset with inbox := s.inbox, inReset := asserted }

end Sys2Proof.Machine
end

