-- ==== Sys2Proof/Machine/Engine.lean ====
section
/-! DEFINITION. The command of 40_command.md. -/

namespace Sys2Proof.Machine

/-- NOP (rule R63): no staged write; the commit still clears ERR and sets DONE. -/
def execNop (s : State) : Host.Outcome State Fault Refusal := commitNext s (.ok ⟨[], none, none⟩)

end Sys2Proof.Machine
end

