-- ==== Sys2Proof/Machine/Field.lean ====
section
/-! DEFINITION. The commands of 41_field.md. -/

namespace Sys2Proof.Machine

/-- FADD (rule R66). -/
def execFadd (m : Modulus) (rd ra rb : FReg) (s : State) : Host.Outcome State Fault Refusal :=
  commitNext s (.ok (stageF rd
    ((s.redF ra (activeModulus m) + s.redF rb (activeModulus m)) % activeModulus m)))

/-- FSUB (rule R67): never negative. -/
def execFsub (m : Modulus) (rd ra rb : FReg) (s : State) : Host.Outcome State Fault Refusal :=
  commitNext s (.ok (stageF rd
    (imod ((s.redF ra (activeModulus m) : Int) - (s.redF rb (activeModulus m) : Int)) (activeModulus m))))

/-- FMUL (rule R68): the product is exact before its one reduction. -/
def execFmul (m : Modulus) (rd ra rb : FReg) (s : State) : Host.Outcome State Fault Refusal :=
  commitNext s (.ok (stageF rd
    (s.redF ra (activeModulus m) * s.redF rb (activeModulus m) % activeModulus m)))

/-- FINV (rule R69). -/
def execFinv (m : Modulus) (rd ra : FReg) (s : State) : Host.Outcome State Fault Refusal :=
  commitNext s (fieldResult rd (inv (s.scalarF ra) (activeModulus m)))

end Sys2Proof.Machine
end

