-- ==== Sys2Proof/Machine/Group.lean ====
section
/-! DEFINITION. The commands of 42_group.md. -/

namespace Sys2Proof.Machine

/-- PDBL (rule R80). -/
def execPdbl (rd ra : PReg) (s : State) : Host.Outcome State Fault Refusal :=
  commitNext s (pointResult rd (ecDbl Config.curve (s.readP ra)))

/-- PADD (rule R81). -/
def execPadd (rd ra rb : PReg) (s : State) : Host.Outcome State Fault Refusal :=
  commitNext s (pointResult rd (ecAdd Config.curve (s.readP ra) (s.readP rb)))

/-- PCHK (rule R82). -/
def execPchk (ra : PReg) (s : State) : Host.Outcome State Fault Refusal :=
  commitNext s (.ok ⟨[], some (onCurve Config.curve (s.readP ra)), none⟩)

/-- PEQ (rule R83). -/
def execPeq (ra rb : PReg) (s : State) : Host.Outcome State Fault Refusal :=
  commitNext s (.ok ⟨[], none, some (ptEq (s.readP ra) (s.readP rb))⟩)

/-- PLDG (rule R84). -/
def execPldg (rd : PReg) (s : State) : Host.Outcome State Fault Refusal :=
  commitNext s (.ok (stageP rd (basePoint Config.curve)))

end Sys2Proof.Machine
end

