-- ==== Sys2Proof/Machine/Scalar.lean ====
section
/-! DEFINITION. The commands of 43_scalar.md. -/

namespace Sys2Proof.Machine

/-- SMUL (rule R89). -/
def execSmul (rd : PReg) (ra : FReg) (rb : PReg) (s : State) : Host.Outcome State Fault Refusal :=
  commitNext s (pointResult rd (checkedMul Config.curve (s.scalarF ra) (s.readP rb)))

/-- DERIVE (rule R90). -/
def execDerive (rd : PReg) (ra : FReg) (s : State) : Host.Outcome State Fault Refusal :=
  commitNext s (pointResult rd (checkedMul Config.curve (s.scalarF ra) (basePoint Config.curve)))

end Sys2Proof.Machine
end

