-- ==== Sys2Proof/Machine/Sign.lean ====
section
/-! DEFINITION. The command of 44_sign.md: the nonce from NONCE or from the entropy port (rules R93, R94), the order of the
checks (rule R97), and the engine's taking of a candidate the port offers. -/

namespace Sys2Proof.Machine

/-- What the drawn candidates give (rule R94). -/
inductive NoncePick where
  /-- The first candidate in [1, n-1]. -/
  | take (k : Nat)
  /-- ENT_MAX_TRIES candidates were drawn and rejected. -/
  | fail
  /-- The engine still waits for a candidate (rule R60). -/
  | wait
  deriving DecidableEq, Repr

/-- The nonce from the candidates, oldest first, of which at most `tries` count (rule R94). -/
def pickNonce (c : Curve) (tries : Nat) (draws : List Wide) : NoncePick :=
  match tries, draws with
  | 0, _ => .fail
  | _ + 1, [] => .wait
  | t + 1, w :: rest => if validScalar c w.toNat then .take w.toNat else pickNonce c t rest

/-- The register after `rd`, where s goes (rule R96). -/
def pairSecond (rd : FReg) : FReg := Fin.ofNat 16 (rd.val + 1)

/-- The staged writes of a signature: F[RD] <- r, F[RD+1] <- s (rule R96). -/
def signResult (rd : FReg) (r : Except CmdError (Nat × Nat)) : Except CmdError Staged :=
  match r with
  | .ok (r, s) => .ok ⟨[.field rd r, .field (pairSecond rd) s], none, none⟩
  | .error e => .error e

/-- SIGN with the nonce `k` in hand and in range (rules R92, R96). -/
def signWith (rd : FReg) (d k z : Nat) (s : State) : State :=
  s.commitSign (signResult rd (signCore Config.curve d k z))

/-- SIGN with LNSRC = 1 (rule R93): k is NONCE, as it is. -/
def signFromNonce (rd : FReg) (d z : Nat) (s : State) : State :=
  if validScalar Config.curve s.nonce.toNat then signWith rd d s.nonce.toNat z s
  else s.commitSign (.error .invalidScalar)

/-- SIGN with LNSRC = 0 (rules R60, R94): it waits, unchanged, until the candidates drawn decide. -/
def signFromPort (rd : FReg) (d z : Nat) (s : State) : State :=
  match pickNonce Config.curve Config.entMaxTries s.draws with
  | .take k => signWith rd d k z s
  | .fail => s.commitSign (.error .entropyFail)
  | .wait => s

/-- SIGN (rules R96, R97). A term with an odd `rd` stands for an illegal word (rule R50 (e)), which never decodes to it, and
ends as one (DESIGN CHOICE, log entry 13). -/
def execSign (rd ra rb : FReg) (s : State) : Host.Outcome State Fault Refusal :=
  if FReg.isPair rd then
    if validScalar Config.curve (s.scalarF ra) then
      if s.lnsrc then .next (signFromNonce rd (s.scalarF ra) (s.scalarF rb) s)
      else .next (signFromPort rd (s.scalarF ra) (s.scalarF rb) s)
    else .next (s.commitSign (.error .invalidScalar))
  else .next s.commitIllegal

/-- A SIGN is executing that draws its nonce from the port (rules R94, R97: with the private scalar out of range it draws no
candidate). -/
def State.signsFromPort (s : State) : Bool :=
  s.busy && !s.lnsrc &&
    match decode s.lcmd with
    | .ok (.sign _ ra _) => validScalar Config.curve (s.scalarF ra)
    | _ => false

/-- The candidates drawn so far do not decide the nonce: the SIGN waits (rules R60, R94). -/
def State.awaitsCandidate (s : State) : Bool :=
  s.signsFromPort && pickNonce Config.curve Config.entMaxTries s.draws == .wait

/-- The entropy port offers a candidate: the engine draws it if it waits for one, else nothing changes (rule R94). -/
def State.offer (s : State) (w : Wide) : State :=
  if s.awaitsCandidate then { s with draws := s.draws ++ [w] } else s

end Sys2Proof.Machine
end

