-- ==== Sys2Proof/Machine/Dispatch.lean ====
section
/-! DEFINITION. The meaning of every command, one arm per constructor. -/

namespace Sys2Proof.Machine

def exec (i : Instr) (s : State) : Host.Outcome State Fault Refusal :=
  match i with
  | .nop => Sys2Proof.Machine.execNop s
  | .fadd m rd ra rb => Sys2Proof.Machine.execFadd m rd ra rb s
  | .fsub m rd ra rb => Sys2Proof.Machine.execFsub m rd ra rb s
  | .fmul m rd ra rb => Sys2Proof.Machine.execFmul m rd ra rb s
  | .finv m rd ra => Sys2Proof.Machine.execFinv m rd ra s
  | .pdbl rd ra => Sys2Proof.Machine.execPdbl rd ra s
  | .padd rd ra rb => Sys2Proof.Machine.execPadd rd ra rb s
  | .pchk ra => Sys2Proof.Machine.execPchk ra s
  | .peq ra rb => Sys2Proof.Machine.execPeq ra rb s
  | .pldg rd => Sys2Proof.Machine.execPldg rd s
  | .smul rd ra rb => Sys2Proof.Machine.execSmul rd ra rb s
  | .derive rd ra => Sys2Proof.Machine.execDerive rd ra s
  | .sign rd ra rb => Sys2Proof.Machine.execSign rd ra rb s

end Sys2Proof.Machine
end

