-- ==== Sys2Proof/Machine/Window.lean ====
section
/-! DEFINITION. The block as a bus slave: the register map (rules R30, R31), reads (rules R17 to R24, R39), writes (rules R20 to
R24, R56, R116), and the accesses the block does not serve (rules R29, R36, R37, R115). -/

namespace Sys2Proof.Machine

/-- The read-only constant registers (rules R18, R30). -/
inductive Constant where
  | p
  | a
  | b
  | n
  | genX
  | genY
  deriving DecidableEq, Repr

/-- A 32-bit register or word of the window (rule R30). -/
inductive Reg where
  | id
  | version
  | ctrl
  | status
  | cmd
  | pinf
  | f (i : FReg) (k : Fin 8)
  | x (j : PReg) (k : Fin 8)
  | y (j : PReg) (k : Fin 8)
  | nonce (k : Fin 8)
  | const (q : Constant) (k : Fin 8)
  | reserved
  deriving DecidableEq, Repr

/-- The word of a 256-bit register an offset falls on (rule R32). -/
def wordIndex (off : Nat) : Fin 8 := ⟨off % 32 / 4, by omega⟩

/-- The constant registers' order from offset 0x500 (rule R30). -/
def constantAt (i : Nat) : Constant :=
  match i with
  | 0 => .p
  | 1 => .a
  | 2 => .b
  | 3 => .n
  | 4 => .genX
  | _ => .genY

/-- Rule R30: what stands at an aligned offset of the window. -/
def regAt (off : Nat) : Reg :=
  if off < 0x100 then
    match off with
    | 0x000 => .id
    | 0x004 => .version
    | 0x008 => .ctrl
    | 0x00C => .status
    | 0x010 => .cmd
    | 0x014 => .pinf
    | _ => .reserved
  else if off < 0x300 then .f (Fin.ofNat 16 ((off - 0x100) / 0x20)) (wordIndex off)
  else if off < 0x400 then
    if (off - 0x300) % 0x40 < 0x20 then .x (Fin.ofNat 4 ((off - 0x300) / 0x40)) (wordIndex off)
    else .y (Fin.ofNat 4 ((off - 0x300) / 0x40)) (wordIndex off)
  else if off < 0x420 then .nonce (wordIndex off)
  else if off < 0x500 then .reserved
  else if off < 0x5C0 then .const (constantAt ((off - 0x500) / 0x20)) (wordIndex off)
  else .reserved

/-- The value of a constant register (rules R3, R18). -/
def constantValue (c : Curve) (q : Constant) : Wide :=
  match q with
  | .p => BitVec.ofNat 256 c.p
  | .a => BitVec.ofNat 256 c.a
  | .b => BitVec.ofNat 256 c.b
  | .n => BitVec.ofNat 256 c.n
  | .genX => BitVec.ofNat 256 c.genX
  | .genY => BitVec.ofNat 256 c.genY

/-- What a read of a register returns (rules R17 to R24, R31, R32). -/
def State.readReg (s : State) (r : Reg) : Word :=
  match r with
  | .id => Config.idValue
  | .version => Config.versionValue
  | .ctrl => s.ctrlWord
  | .status => s.statusWord
  | .cmd => s.cmdLast
  | .pinf => s.pinfWord
  | .f i k => wideWord s.f[i.val] k
  | .x j k => wideWord s.x[j.val] k
  | .y j k => wideWord s.y[j.val] k
  | .nonce _ => 0#32
  | .const q k => wideWord (constantValue Config.curve q) k
  | .reserved => 0#32

/-- Rule R56: a write to a data register or to CMD takes effect only while idle; while busy it is dropped and sets WERR. -/
def State.unlessBusy (s t : State) : State := if s.busy then { s with werr := true } else t

/-- Rules R20, R116: a write to CTRL, busy or idle. -/
def State.hostCtrl (s : State) (v : Word) : State :=
  if v.getLsbD 31 then s.softReset else { s with ie := v.getLsbD 0, nsrc := v.getLsbD 1 }

/-- What a write to a register does (rules R18 to R24, R31, R55, R56). -/
def State.writeReg (s : State) (r : Reg) (v : Word) : State :=
  match r with
  | .id => s
  | .version => s
  | .ctrl => s.hostCtrl v
  | .status => s.hostStatus v
  | .cmd => s.unlessBusy (s.accept v)
  | .pinf => s.unlessBusy (s.hostPinf v)
  | .f i k => s.unlessBusy (s.hostF i k v)
  | .x j k => s.unlessBusy (s.hostX j k v)
  | .y j k => s.unlessBusy (s.hostY j k v)
  | .nonce k => s.unlessBusy (s.hostNonce k v)
  | .const _ _ => s
  | .reserved => s

/-- `MemRead(off, 4)` (rule R10). -/
def State.busRead (s : State) (off : Nat) : Word := s.readReg (regAt off)

/-- `MemWrite(off, 4, v)` (rule R10). -/
def State.busWrite (s : State) (off : Nat) (v : Word) : State := s.writeReg (regAt off) v

/-- Rule R29: the offset of an address in the window. -/
def windowOffset (addr : Nat) : Option Nat :=
  if Config.base ≤ addr ∧ addr < Config.base + Config.windowBytes then some (addr - Config.base) else none

/-- An access at an offset of the window: the width and the alignment are checked first (rules R36, R37; DESIGN
CHOICE of their order, log entry 10). `wr` is the value of
a write, `none` for a read. -/
def offsetAccess (s : State) (off bytes : Nat) (wr : Option Word) : Host.Outcome State Fault Refusal :=
  if bytes ≠ 4 then .fault .badWidth
  else if off % 4 ≠ 0 then .fault .misaligned
  else
    match wr with
    | none => .next { s with resp := some (s.busRead off) }
    | some v => .next { s.busWrite off v with resp := none }

/-- An access at an address, while the block serves accesses. -/
def addrAccess (s : State) (addr bytes : Nat) (wr : Option Word) : Host.Outcome State Fault Refusal :=
  match windowOffset addr with
  | none => .fault .outsideWindow
  | some off => if s.inReset then .next { s with resp := none } else offsetAccess s off bytes wr

/-- One bus access (rules R36, R37, R40); while the reset input is asserted the block serves none (rule R115). -/
def busAccess (a : Access) (s : State) : Host.Outcome State Fault Refusal :=
  match a with
  | .read addr bytes => addrAccess s addr bytes none
  | .write addr bytes v => addrAccess s addr bytes (some v)

end Sys2Proof.Machine
end

