-- ==== Sys2Proof/Machine/HostView.lean ====
section
/-! DEFINITION. The host's side of the interface: the big-endian encodings (rules R33 to R35, R91) and the host
pseudo-instructions of rule R53, each a list of events in the order they reach the block. -/

namespace Sys2Proof.Machine

/-- Rule R33: byte `k` of a 256-bit value's encoding. -/
def wideByte (r : Wide) (k : Nat) : Byte := r.extractLsb' (248 - 8 * k) 8

/-- Rule R33: the 32-byte big-endian encoding, BE32. -/
def be32 (r : Wide) : List Byte := (List.range 32).map (wideByte r)

/-- Rule R34: the 65-byte uncompressed encoding of a point register, which exists only where its INF flag is 0. -/
def State.publicKey (s : State) (j : PReg) : Option (List Byte) :=
  if s.inf[j.val] then none else some (0x04#8 :: (be32 s.x[j.val] ++ be32 s.y[j.val]))

/-- `MemRead(off, 4)` as an event. -/
def readEvent (off : Nat) : Event := .access (.read (Config.base + off) 4)

/-- `MemWrite(off, 4, v)` as an event. -/
def writeEvent (off : Nat) (v : Word) : Event := .access (.write (Config.base + off) 4 v)

/-- The eight writes of a 256-bit register at offset `off` (rules R32, R53). -/
def writeWide (off : Nat) (v : Wide) : List Event :=
  (List.finRange 8).map (fun k => writeEvent (off + 4 * k.val) (wideWord v k))

/-- The eight reads of a 256-bit register at offset `off` (rules R32, R53). -/
def readWide (off : Nat) : List Event := (List.finRange 8).map (fun k => readEvent (off + 4 * k.val))

/-- `WRF Fi, v`. -/
def hostWRF (i : FReg) (v : Wide) : List Event := writeWide (0x100 + 0x20 * i.val) v

/-- `WRX Pj, v`. -/
def hostWRX (j : PReg) (v : Wide) : List Event := writeWide (0x300 + 0x40 * j.val) v

/-- `WRY Pj, v`. -/
def hostWRY (j : PReg) (v : Wide) : List Event := writeWide (0x320 + 0x40 * j.val) v

/-- `WRINF mask`. -/
def hostWRINF (mask : Word) : List Event := [writeEvent 0x014 mask]

/-- `WRNONCE v`. -/
def hostWRNONCE (v : Wide) : List Event := writeWide 0x400 v

/-- `WRCTRL v`. -/
def hostWRCTRL (v : Word) : List Event := [writeEvent 0x008 v]

/-- `ISSUE cmd`. -/
def hostISSUE (i : Instr) : List Event := [writeEvent 0x010 (encode i)]

/-- `WAIT`, in a schedule in which the commit comes after `polls` reads of STATUS that still see BUSY = 1. -/
def hostWAIT (polls : Nat) : List Event := List.replicate polls (readEvent 0x00C) ++ [.engine, readEvent 0x00C]

/-- `EXEC cmd`, with `WAIT` as in `hostWAIT`. -/
def hostEXEC (i : Instr) (polls : Nat) : List Event := hostISSUE i ++ hostWAIT polls

/-- `RDF Fi`. -/
def hostRDF (i : FReg) : List Event := readWide (0x100 + 0x20 * i.val)

/-- `RDX Pj`. -/
def hostRDX (j : PReg) : List Event := readWide (0x300 + 0x40 * j.val)

/-- `RDY Pj`. -/
def hostRDY (j : PReg) : List Event := readWide (0x320 + 0x40 * j.val)

/-- `RDST`. -/
def hostRDST : List Event := [readEvent 0x00C]

/-- `CLRDONE`. -/
def hostCLRDONE : List Event := [writeEvent 0x00C 0x00000002#32]

end Sys2Proof.Machine
end

