-- ==== Sys2Proof/Machine/Step.lean ====
section
/-! DEFINITION. One step of the machine: the next event of `inbox`, or, where none is listed, the engine's turn (rules R40, R54,
R60; log entries 1 and 2). -/

namespace Sys2Proof.Machine

/-- The engine's turn (rules R54, R57, R58): an accepted command is decoded and executed; an idle engine, and an engine held
in reset (rule R115), do nothing. -/
def engineStep (s : State) : Host.Outcome State Fault Refusal :=
  if s.busy && !s.inReset then
    match decode s.lcmd with
    | .ok i => exec i s
    | .error _ => .next s.commitIllegal
  else .next s

/-- One event at the block. -/
def eventStep (e : Event) (s : State) : Host.Outcome State Fault Refusal :=
  match e with
  | .access a => busAccess a s
  | .engine => engineStep s
  | .candidate w => .next (if s.inReset then s else s.offer w)
  | .resetPin b => .next (s.resetPin b)

/-- One step. -/
def step (s : State) : Host.Outcome State Fault Refusal :=
  match s.inbox with
  | [] => engineStep s
  | e :: rest => eventStep e { s with inbox := rest }

/-- `s` with the command word `w` accepted (rule R55), as by a host write to CMD, and the engine's turn next: with events to
come, an engine turn is put before them. The block fetches nothing (rules R25, R44): the command to run is the one in LCMD (log
entry 9). -/
def State.withFetchWord (s : State) (nbits w : Nat) : State :=
  { s.accept (BitVec.ofNat 32 (w % 2 ^ nbits)) with
    inReset := false
    inbox :=
      match s.inbox with
      | [] => []
      | e :: rest => .engine :: e :: rest }

end Sys2Proof.Machine
end

