-- ==== Sys2Proof/Safety.lean ====
section
/-! DEFINITION. The terms claims are stated in: what a commit leaves of the control registers, frames over the two register
files, what a point register holds, the command's destinations, and the invariant of the engine. -/

namespace Sys2Proof.Machine

/-! ### Frames -/

/-- What a commit that reports `e` leaves of every register a host can see but the register files, NONCE and the two result
flags (rule R58). -/
def CommitControl (s t : State) (e : Option CmdError) : Prop :=
  t.busy = false ∧ t.done = true ∧ t.err = e ∧ t.ie = s.ie ∧ t.nsrc = s.nsrc ∧ t.werr = s.werr ∧
    t.cmdLast = s.cmdLast ∧ t.inReset = s.inReset ∧ t.inbox = s.inbox ∧ t.resp = s.resp

/-- Nothing of the engine's hidden state is left (rule R26); what an idle engine holds for LCMD and LNSRC, 0 as after reset, is
log entry 11's choice. -/
def EngineCleared (t : State) : Prop := t.lcmd = 0#32 ∧ t.lnsrc = false ∧ t.draws = []

/-- The two result flags are unchanged (rule R22). -/
def KeepsFlags (s t : State) : Prop := t.onCurveFlag = s.onCurveFlag ∧ t.eqFlag = s.eqFlag

/-- Every field register but those listed is unchanged. -/
def FieldsBut (s t : State) (rds : List FReg) : Prop := ∀ i : FReg, i ∉ rds → t.f[i.val] = s.f[i.val]

/-- Every point register but those listed is unchanged, its coordinates and its INF flag. -/
def PointsBut (s t : State) (rds : List PReg) : Prop :=
  ∀ j : PReg, j ∉ rds → t.x[j.val] = s.x[j.val] ∧ t.y[j.val] = s.y[j.val] ∧ t.inf[j.val] = s.inf[j.val]

/-- Everything a command that reports `e` may not touch, given its destinations: NONCE and the flags are unchanged. -/
def CommandFrame (s t : State) (e : Option CmdError) (fs : List FReg) (ps : List PReg) : Prop :=
  CommitControl s t e ∧ KeepsFlags s t ∧ t.nonce = s.nonce ∧ FieldsBut s t fs ∧ PointsBut s t ps

/-- The whole state after an error `e` of a command other than SIGN (rules R58, R103), the engine's hidden state cleared (rule
R26, log entry 11). -/
def afterError (s : State) (e : CmdError) : State :=
  { s with err := some e, busy := false, done := true, lcmd := 0#32, lnsrc := false, draws := [] }

/-- The field registers a command may write. -/
def destF : Instr → List FReg
  | .nop => []
  | .fadd _ rd _ _ => [rd]
  | .fsub _ rd _ _ => [rd]
  | .fmul _ rd _ _ => [rd]
  | .finv _ rd _ => [rd]
  | .pdbl _ _ => []
  | .padd _ _ _ => []
  | .pchk _ => []
  | .peq _ _ => []
  | .pldg _ => []
  | .smul _ _ _ => []
  | .derive _ _ => []
  | .sign rd _ _ => [rd, pairSecond rd]

/-- The point registers a command may write. -/
def destP : Instr → List PReg
  | .nop => []
  | .fadd _ _ _ _ => []
  | .fsub _ _ _ _ => []
  | .fmul _ _ _ _ => []
  | .finv _ _ _ => []
  | .pdbl rd _ => [rd]
  | .padd rd _ _ => [rd]
  | .pchk _ => []
  | .peq _ _ => []
  | .pldg rd => [rd]
  | .smul rd _ _ => [rd]
  | .derive rd _ => [rd]
  | .sign _ _ _ => []

/-- The command is a SIGN. -/
def isSign : Instr → Bool
  | .sign _ _ _ => true
  | _ => false

/-! ### Bus words -/

/-- `r` is `r0` with word `k` replaced by `v` (rule R32). -/
def OneWord (r0 r : Wide) (k : Fin 8) (v : Word) : Prop :=
  wideWord r k = v ∧ ∀ k', k' ≠ k → wideWord r k' = wideWord r0 k'

/-- The eight writes of WRF, WRX, WRY and WRNONCE one after another: word `k` of `v` to offset `off` + 4·k (rule R53). -/
def loadWide (s : State) (off : Nat) (v : Wide) : State :=
  (List.finRange 8).foldl (fun t (k : Fin 8) => t.busWrite (off + 4 * k.val) (wideWord v k)) s

/-! ### Points -/

/-- Point register `j` holds the value `q` in the form commands write it (rule R16). -/
def HoldsPoint (t : State) (j : PReg) (q : Point) : Prop :=
  match q with
  | .inf => t.inf[j.val] = true ∧ t.x[j.val] = 0#256 ∧ t.y[j.val] = 0#256
  | .aff x y => t.inf[j.val] = false ∧ t.x[j.val].toNat = x ∧ t.y[j.val].toNat = y

/-- A point value as rule R14 has it: the coordinates are in [0, p). -/
def Reduced (c : Curve) : Point → Prop
  | .inf => True
  | .aff x y => x < c.p ∧ y < c.p

/-- Every point register reads a point of the curve (rules R15, R74). -/
def PointsOnCurve (s : State) : Prop := ∀ j : PReg, onCurve Config.curve (s.readP j) = true

/-- `q` is the third point of the line of slope `lam` through (x1, y1) and the abscissa x2, mirrored (the last two lines of
rules R72 and R73). -/
def OnLine (c : Curve) (lam x1 y1 x2 : Nat) (q : Point) : Prop :=
  ∃ x3 y3 : Nat, q = .aff x3 y3 ∧ x3 < c.p ∧ y3 < c.p ∧
    (x3 : Int) ≡ (lam : Int) ^ 2 - (x1 : Int) - (x2 : Int) [ZMOD c.p] ∧
    (y3 : Int) ≡ (lam : Int) * ((x1 : Int) - (x3 : Int)) - (y1 : Int) [ZMOD c.p]

/-- `q` is the double of the affine point (x, y), y not 0, by the tangent's slope (3·x² + a) · (2·y)⁻¹ (rule R72). -/
def TangentPoint (c : Curve) (x y : Nat) (q : Point) : Prop :=
  ∃ i lam : Nat, i < c.p ∧ 2 * y * i % c.p = 1 ∧ lam = (3 * x ^ 2 + c.a) * i % c.p ∧ OnLine c lam x y x q

/-- `q` is the sum of the affine points (x1, y1) and (x2, y2), x1 and x2 different, by the chord's slope (y2 − y1) · (x2 −
x1)⁻¹ (rule R73). -/
def ChordPoint (c : Curve) (x1 y1 x2 y2 : Nat) (q : Point) : Prop :=
  ∃ i lam : Nat, i < c.p ∧ ((x2 : Int) - (x1 : Int)) * (i : Int) ≡ 1 [ZMOD c.p] ∧ lam < c.p ∧
    (lam : Int) ≡ ((y2 : Int) - (y1 : Int)) * (i : Int) [ZMOD c.p] ∧ OnLine c lam x1 y1 x2 q

/-- One bit of the fixed loop of rule R87, from bit `i - 1` down to bit 0. -/
def fixedLoop (c : Curve) (k : Nat) (q : Point) : Nat → Except CmdError Point → Except CmdError Point
  | 0, acc => acc
  | i + 1, acc =>
    fixedLoop c k q i
      (match acc with
      | .error e => .error e
      | .ok a => ecMulStep c q (k.testBit i) a)

/-! ### The engine's invariant -/

/-- A candidate the engine rejects (rule R94). -/
def rejected (w : Wide) : Bool := !validScalar Config.curve w.toNat

/-- What holds in every state a run from reset reaches: while a command executes, DONE and ERR are clear (rule R55) and LCMD
is CMDLAST; while none does, nothing of the engine's hidden state is left (rule R26; its value then, log entry 11); candidates
(held as log entry 7 says) are drawn only by a SIGN that takes its nonce from the port, at most ENT_MAX_TRIES, each after the
rejection of those before it (rules R94, R97); with the reset input asserted every register holds its reset value (the model's
choice, log entry 6: rule R115 says so of the release). -/
def State.Inv (s : State) : Prop :=
  (s.busy = true → s.done = false ∧ s.err = none ∧ s.lcmd = s.cmdLast) ∧
    (s.busy = false → EngineCleared s) ∧
    s.draws.length ≤ Config.entMaxTries ∧
    (∀ w ∈ s.draws.dropLast, rejected w = true) ∧
    (s.draws ≠ [] → s.signsFromPort = true) ∧
    (s.inReset = true → s = { State.reset with inReset := true, inbox := s.inbox, resp := s.resp })

end Sys2Proof.Machine
end

