-- ==== Sys2Proof/Certificates/Slice0/Obligations.lean ====
section
/-! DEFINITION. The statements for the provers, family by family of the spec's rules. Nothing here is proved. -/

open Sys2Proof Sys2Proof.Machine

/-! ### The constants (00_scope.md) -/

/-- Rule R2, of the values rule R3 takes from general knowledge (log entry 12): the base point satisfies the curve equation,
its coordinates are in [0, p), and p has the value of its closed form. -/
def Obligations.BasePointIsOnTheCurve : Prop :=
  onCurve Config.curve (basePoint Config.curve) = true ∧ Reduced Config.curve (basePoint Config.curve) ∧
    Config.curve.p = 2 ^ 256 - 2 ^ 32 - 977 ∧ Config.curve.a = 0 ∧ Config.curve.b = 7

/-! ### The command word (30_encoding.md) -/

/-- Rules R46, R49, R50: words written out in the spec decode to the commands the spec names for them, and its illegal words
do not decode. -/
def Obligations.SpecWordsDecode : Prop :=
  decode 0x00000000#32 = .ok .nop ∧
    decode 0x00010201#32 = .ok (.fadd .p 2 0 1) ∧
    decode 0x00110201#32 = .ok (.fadd .n 2 0 1) ∧
    decode 0x00010202#32 = .ok (.fsub .p 2 0 1) ∧
    decode 0x00110203#32 = .ok (.fmul .n 2 0 1) ∧
    decode 0x00100204#32 = .ok (.finv .n 2 0) ∧
    decode 0x00000108#32 = .ok (.pdbl 1 0) ∧
    decode 0x00001209#32 = .ok (.padd 2 1 0) ∧
    decode 0x0000200A#32 = .ok (.pchk 2) ∧
    decode 0x0002100B#32 = .ok (.peq 1 2) ∧
    decode 0x0000000C#32 = .ok (.pldg 0) ∧
    decode 0x00001310#32 = .ok (.smul 3 1 0) ∧
    decode 0x00000111#32 = .ok (.derive 1 0) ∧
    decode 0x00010218#32 = .ok (.sign 2 0 1) ∧
    decode 0x00000005#32 = .error .reservedOpcode ∧
    decode 0x00200001#32 = .error .reservedBits ∧
    decode 0x00010004#32 = .error .unusedField ∧
    decode 0x00100008#32 = .error .unusedField ∧
    decode 0x00000408#32 = .error .pointIndex ∧
    decode 0x00000118#32 = .error .oddPair

/-- Rules R46, R47: the word of every well-formed command, with every operand it admits, decodes to that command. -/
def Obligations.DecodeOfEncode : Prop :=
  ∀ i : Instr, i.wellFormed = true → decode (encode i) = .ok i

/-- Rules R49, R50: a word that decodes is the word of the command it decodes to, and that command is well-formed: one word
per meaning. -/
def Obligations.EncodeOfDecode : Prop :=
  ∀ (w : Word) (i : Instr), decode w = .ok i → i.wellFormed = true ∧ encode i = w

/-- Rule R49: "a word w is this command iff w & mask = match". -/
def Obligations.DecodeMatchesOpcodeTable : Prop :=
  ∀ w : Word,
    (∀ i, decode w = .ok i → i.row ∈ opcodeTable ∧ w &&& i.row.mask = i.row.bits) ∧
      ∀ r ∈ opcodeTable, w &&& r.mask = r.bits → ∃ i, decode w = .ok i ∧ i.row = r

/-- Rule R50: a word is illegal in exactly the five cases (a) to (e), over its fields as numbers. -/
def Obligations.IllegalWordsAreThoseOfR50 : Prop :=
  ∀ w : Word,
    let opc := w.toNat % 256
    let rd := w.toNat / 2 ^ 8 % 16
    let ra := w.toNat / 2 ^ 12 % 16
    let rb := w.toNat / 2 ^ 16 % 16
    let m := w.toNat / 2 ^ 20 % 2
    (∃ e, decode w = .error e) ↔
      (opc ∉ [0x00, 0x01, 0x02, 0x03, 0x04, 0x08, 0x09, 0x0A, 0x0B, 0x0C, 0x10, 0x11, 0x18] ∨
        w.toNat / 2 ^ 21 ≠ 0 ∨
        (opc ∈ [0x00, 0x0A, 0x0B] ∧ rd ≠ 0) ∨
        (opc ∈ [0x00, 0x0C] ∧ ra ≠ 0) ∨
        (opc ∈ [0x00, 0x04, 0x08, 0x0A, 0x0C, 0x11] ∧ rb ≠ 0) ∨
        (opc ∉ [0x01, 0x02, 0x03, 0x04] ∧ m ≠ 0) ∨
        (opc ∈ [0x08, 0x09, 0x0C, 0x10, 0x11] ∧ 4 ≤ rd) ∨
        (opc ∈ [0x08, 0x09, 0x0A, 0x0B] ∧ 4 ≤ ra) ∨
        (opc ∈ [0x09, 0x0B, 0x10] ∧ 4 ≤ rb) ∨
        (opc = 0x18 ∧ rd % 2 = 1))

/-! ### The command engine (40_command.md) -/

/-- Rules R54, R57, R58: when a command is executing and its word decodes to `i`, the engine's turn is `exec i`. Which step is
the engine's turn is the model's choice (log entries 1 and 2): with nothing left in `inbox` the step itself, and with an engine
turn at its head the step after taking that event; and then it is so whatever the state. -/
def Obligations.StepRunsTheDecodedCommand : Prop :=
  (∀ s : State, (s.inbox = [] → step s = engineStep s) ∧
    ∀ rest, s.inbox = .engine :: rest → step s = engineStep { s with inbox := rest }) ∧
    ∀ (s : State) (i : Instr), s.busy = true → s.inReset = false → decode s.lcmd = .ok i →
      engineStep s = exec i s ∧ (s.inbox = [] → step s = exec i s) ∧
        ∀ rest, s.inbox = .engine :: rest → step s = exec i { s with inbox := rest }

/-- Rule R61: an illegal word commits with ERR = ILLEGAL_CMD and changes no register, flag or NONCE; DONE and the interrupt
behave as for any commit, and the next command is accepted normally. -/
def Obligations.IllegalWordCommits : Prop :=
  ∀ (s : State) (e : Illegal), s.busy = true → s.inReset = false → decode s.lcmd = .error e →
    ∃ t, engineStep s = .next t ∧ CommandFrame s t (some .illegalCmd) [] [] ∧ t.irq = s.ie ∧
      ∀ w, (t.busWrite 0x010 w).busy = true ∧ (t.busWrite 0x010 w).lcmd = w ∧ (t.busWrite 0x010 w).err = none

/-- Rule R55: a write of `w` to CMD while idle accepts it, legal or not, and changes nothing else. -/
def Obligations.CmdWriteAccepts : Prop :=
  ∀ (s : State) (w : Word), s.busy = false →
    ∃ t, s.busWrite 0x010 w = t ∧ t.cmdLast = w ∧ t.lcmd = w ∧ t.lnsrc = s.nsrc ∧ t.busy = true ∧ t.done = false ∧
      t.err = none ∧ t.onCurveFlag = s.onCurveFlag ∧ t.eqFlag = s.eqFlag ∧ t.werr = s.werr ∧ t.f = s.f ∧ t.x = s.x ∧
      t.y = s.y ∧ t.inf = s.inf ∧ t.nonce = s.nonce ∧ t.ie = s.ie ∧ t.nsrc = s.nsrc ∧ t.inReset = s.inReset ∧
      t.inbox = s.inbox ∧ t.resp = s.resp

/-- Rule R56: while busy, a write to CMD, PINF or a data register is dropped and sets WERR; CTRL and STATUS act as when idle; a
read-only or reserved offset is ignored; a read is served with the current value (as an event and its answer, log entries 1
and 3). -/
def Obligations.BusyWritesAreDropped : Prop :=
  ∀ (s : State) (off : Nat) (v : Word), s.busy = true → off % 4 = 0 → off < 4096 →
    ((off = 0x010 ∨ off = 0x014 ∨ (0x100 ≤ off ∧ off < 0x420)) → s.busWrite off v = { s with werr := true }) ∧
      ((off = 0x000 ∨ off = 0x004 ∨ (0x018 ≤ off ∧ off < 0x100) ∨ 0x420 ≤ off) → s.busWrite off v = s) ∧
      (off = 0x008 → v.getLsbD 31 = false →
        s.busWrite off v = { s with ie := v.getLsbD 0, nsrc := v.getLsbD 1 }) ∧
      (off = 0x008 → v.getLsbD 31 = true → s.busWrite off v = { State.reset with inbox := s.inbox }) ∧
      (off = 0x00C →
        s.busWrite off v = { s with done := s.done && !v.getLsbD 1, werr := s.werr && !v.getLsbD 16 }) ∧
      ∀ rest, s.inbox = readEvent off :: rest → s.inReset = false →
        step s = .next { s with inbox := rest, resp := some (s.busRead off) }

/-- Rules R56, R57: while a command stays executing, whatever step is taken, no register it reads changes, nor its latches; the
candidates drawn can only grow. -/
def Obligations.BusyFreezesOperands : Prop :=
  ∀ s t : State, s.busy = true → step s = .next t → t.busy = true →
    t.f = s.f ∧ t.x = s.x ∧ t.y = s.y ∧ t.inf = s.inf ∧ t.nonce = s.nonce ∧ t.cmdLast = s.cmdLast ∧ t.lcmd = s.lcmd ∧
      t.lnsrc = s.lnsrc ∧ ∃ more, t.draws = s.draws ++ more

/-- Rules R26, R58: an executing command ends only by its commit, on the engine's turn (an empty `inbox` is one by the model's
choice, log entry 2) and with DONE set, or by a reset, which leaves every register at its reset value (under the reset input
already at its assertion, log entry 6); and nothing of the engine's hidden state survives either (log entry 11). -/
def Obligations.CommandEndsByCommitOrReset : Prop :=
  ∀ s t : State, s.busy = true → step s = .next t → t.busy = false →
    EngineCleared t ∧
      ((t.done = true ∧ (s.inbox = [] ∨ ∃ rest, s.inbox = .engine :: rest)) ∨
        t = { State.reset with inbox := t.inbox, inReset := t.inReset })

/-- Rule R60: every command but a SIGN that waits for a candidate commits on the engine's turn, whatever the state; a SIGN
that waits is left as it is. With nothing left in `inbox` the next step is that turn (the model's choice, log entry 2): an
executing command commits unless it is a SIGN that awaits a candidate, and that one hangs. -/
def Obligations.EveryCommandCommitsOrWaits : Prop :=
  (∀ (i : Instr) (s : State),
    (∃ t, exec i s = .next t ∧ t.busy = false ∧ t.done = true) ∨
      (∃ rd ra rb, i = .sign rd ra rb ∧ s.lnsrc = false ∧ s.draws.length < Config.entMaxTries ∧ exec i s = .next s)) ∧
    ∀ s : State, s.busy = true → s.inReset = false → s.inbox = [] →
      (s.awaitsCandidate = false → ∃ t, step s = .next t ∧ t.busy = false ∧ t.done = true) ∧
        (s.awaitsCandidate = true → step s = .next s)

/-- Rules R22, R58: what any command leaves unchanged: the field and point registers that are not its destinations, NONCE but
for SIGN, ONCURVE but for a PCHK without error, EQ but for a PEQ without error, CTRL, WERR, CMDLAST and the reset input; and
every word of the window reads as before but STATUS, PINF where it writes a point, and the words of its destinations. The
engine's hidden state is cleared (rule R26; LCMD and LNSRC as 0 are log entry 11's choice), but by a SIGN that waits, which
changes nothing. -/
def Obligations.CommandFrameOfEveryCommand : Prop :=
  ∀ (i : Instr) (s t : State), exec i s = .next t →
    FieldsBut s t (destF i) ∧ PointsBut s t (destP i) ∧ (isSign i = false → t.nonce = s.nonce) ∧
      (t.onCurveFlag ≠ s.onCurveFlag → t.err = none ∧ ∃ ra, i = .pchk ra) ∧
      (t.eqFlag ≠ s.eqFlag → t.err = none ∧ ∃ ra rb, i = .peq ra rb) ∧
      t.ie = s.ie ∧ t.nsrc = s.nsrc ∧ t.werr = s.werr ∧ t.cmdLast = s.cmdLast ∧ t.inReset = s.inReset ∧
      t.inbox = s.inbox ∧ t.resp = s.resp ∧ (EngineCleared t ∨ (isSign i = true ∧ t = s)) ∧
      ∀ off, regAt off ≠ .status → (regAt off = .pinf → destP i = []) → (∀ r ∈ destF i, ∀ k, regAt off ≠ .f r k) →
        (∀ j ∈ destP i, ∀ k, regAt off ≠ .x j k ∧ regAt off ≠ .y j k) → t.busRead off = s.busRead off

/-- Rules R26, R58, and what the spec infers in rule R103: after a commit with an error the state is the one before the command,
with ERR set, BUSY = 0, DONE = 1, the engine's hidden state cleared (log entry 11), and for SIGN NONCE = 0. -/
def Obligations.ErrorsArePrecise : Prop :=
  ∀ (i : Instr) (s t : State) (e : CmdError), i.wellFormed = true → s.busy = true → exec i s = .next t →
    t.busy = false → t.err = some e →
    t = { afterError s e with nonce := if isSign i then 0#256 else s.nonce }

/-- Rules R14, R16, and what the spec infers in rule R70: what a command without error leaves in its destinations is canonical:
point coordinates in [0, p), 0 beside a set INF flag, field results in [0, m), and r and s of SIGN in [1, n-1]. -/
def Obligations.CommandResultsAreCanonical : Prop :=
  ∀ (i : Instr) (s t : State), s.busy = true → exec i s = .next t → t.busy = false → t.err = none →
    (∀ j ∈ destP i, t.x[j.val].toNat < Config.curve.p ∧ t.y[j.val].toNat < Config.curve.p ∧
      (t.inf[j.val] = true → t.x[j.val] = 0#256 ∧ t.y[j.val] = 0#256)) ∧
      (∀ m rd, (∃ ra rb, i = .fadd m rd ra rb ∨ i = .fsub m rd ra rb ∨ i = .fmul m rd ra rb ∨ i = .finv m rd ra) →
        t.f[rd.val].toNat < activeModulus m) ∧
      (∀ rd ra rb, i = .sign rd ra rb → ∀ r ∈ [rd, pairSecond rd],
        1 ≤ t.f[r.val].toNat ∧ t.f[r.val].toNat < Config.curve.n)

/-- Rule R63: NOP writes no register and no flag, clears ERR and sets DONE. -/
def Obligations.NopCompletes : Prop :=
  ∀ s : State, ∃ t, exec .nop s = .next t ∧ CommandFrame s t none [] []

/-! ### The bus (20_memory.md) -/

/-- Rules R30, R17 to R24, R31, R32: what a read of each offset of the window returns. -/
def Obligations.WindowReadsTheRegisterMap : Prop :=
  ∀ s : State,
    s.busRead 0x000 = 0x45434331#32 ∧ s.busRead 0x004 = 0x00010000#32 ∧ s.busRead 0x008 = s.ctrlWord ∧
      s.busRead 0x00C = s.statusWord ∧ s.busRead 0x010 = s.cmdLast ∧ s.busRead 0x014 = s.pinfWord ∧
      (∀ (i : Fin 16) (k : Fin 8),
        (s.busRead (0x100 + 0x20 * i.val + 4 * k.val)).toNat = s.f[i.val].toNat / 2 ^ (224 - 32 * k.val) % 2 ^ 32) ∧
      (∀ (j : Fin 4) (k : Fin 8),
        (s.busRead (0x300 + 0x40 * j.val + 4 * k.val)).toNat = s.x[j.val].toNat / 2 ^ (224 - 32 * k.val) % 2 ^ 32 ∧
          (s.busRead (0x320 + 0x40 * j.val + 4 * k.val)).toNat = s.y[j.val].toNat / 2 ^ (224 - 32 * k.val) % 2 ^ 32) ∧
      (∀ k : Fin 8, s.busRead (0x400 + 4 * k.val) = 0#32 ∧
        (s.busRead (0x500 + 4 * k.val)).toNat = Config.curve.p / 2 ^ (224 - 32 * k.val) % 2 ^ 32 ∧
        (s.busRead (0x520 + 4 * k.val)).toNat = Config.curve.a / 2 ^ (224 - 32 * k.val) % 2 ^ 32 ∧
        (s.busRead (0x540 + 4 * k.val)).toNat = Config.curve.b / 2 ^ (224 - 32 * k.val) % 2 ^ 32 ∧
        (s.busRead (0x560 + 4 * k.val)).toNat = Config.curve.n / 2 ^ (224 - 32 * k.val) % 2 ^ 32 ∧
        (s.busRead (0x580 + 4 * k.val)).toNat = Config.curve.genX / 2 ^ (224 - 32 * k.val) % 2 ^ 32 ∧
        (s.busRead (0x5A0 + 4 * k.val)).toNat = Config.curve.genY / 2 ^ (224 - 32 * k.val) % 2 ^ 32) ∧
      (∀ off, (0x018 ≤ off ∧ off < 0x100) ∨ (0x420 ≤ off ∧ off < 0x500) ∨ (0x5C0 ≤ off ∧ off < 0x1000) →
        off % 4 = 0 → s.busRead off = 0#32)

/-- Rules R20, R21, R24, R31, R101: in every state the reserved bits of CTRL, STATUS and PINF and CTRL bit 31 read 0, every
other bit reads its field, and ERR reads one of the codes 0 to 5. -/
def Obligations.ControlWordsReadTheirFields : Prop :=
  ∀ s : State,
    ((s.busRead 0x008).getLsbD 0 = s.ie ∧ (s.busRead 0x008).getLsbD 1 = s.nsrc ∧
        ∀ b, 2 ≤ b → (s.busRead 0x008).getLsbD b = false) ∧
      ((s.busRead 0x00C).getLsbD 0 = s.busy ∧ (s.busRead 0x00C).getLsbD 1 = s.done ∧
        (s.busRead 0x00C).toNat / 16 % 16 = (match s.err with
          | none => 0
          | some .invalidScalar => 1
          | some .divZero => 2
          | some .sigDegenerate => 3
          | some .illegalCmd => 4
          | some .entropyFail => 5) ∧
        (s.busRead 0x00C).getLsbD 8 = s.onCurveFlag ∧ (s.busRead 0x00C).getLsbD 9 = s.eqFlag ∧
        (s.busRead 0x00C).getLsbD 16 = s.werr ∧
        ∀ b, (b = 2 ∨ b = 3 ∨ (10 ≤ b ∧ b ≤ 15) ∨ 17 ≤ b) → (s.busRead 0x00C).getLsbD b = false) ∧
      ((∀ j : Fin 4, (s.busRead 0x014).getLsbD j.val = s.inf[j.val]) ∧
        ∀ b, 4 ≤ b → (s.busRead 0x014).getLsbD b = false)

/-- Rules R12, R13, R24, R32: an idle write to a word of F, X, Y or NONCE replaces that word of that register and changes
nothing else of the state; so over the bus every other word of the window, PINF included, reads as before. An idle write to
PINF sets all four flags from bits 3:0 and changes nothing else. -/
def Obligations.IdleWriteReplacesOneWord : Prop :=
  ∀ (s : State) (v : Word), s.busy = false →
    (∀ off, off % 4 = 0 → 0x100 ≤ off → off < 0x400 →
      (s.busWrite off v).busRead off = v ∧
        ∀ off', off' % 4 = 0 → off' < 4096 → off' ≠ off → (s.busWrite off v).busRead off' = s.busRead off') ∧
      (∃ flags, s.busWrite 0x014 v = { s with inf := flags } ∧ ∀ j : Fin 4, flags[j.val] = v.getLsbD j.val) ∧
      ∀ k : Fin 8,
        (∀ i : FReg, ∃ r, s.busWrite (0x100 + 0x20 * i.val + 4 * k.val) v = { s with f := s.f.set i.val r } ∧
          OneWord s.f[i.val] r k v) ∧
        (∀ j : PReg, ∃ r, s.busWrite (0x300 + 0x40 * j.val + 4 * k.val) v = { s with x := s.x.set j.val r } ∧
          OneWord s.x[j.val] r k v) ∧
        (∀ j : PReg, ∃ r, s.busWrite (0x320 + 0x40 * j.val + 4 * k.val) v = { s with y := s.y.set j.val r } ∧
          OneWord s.y[j.val] r k v) ∧
        ∃ r, s.busWrite (0x400 + 4 * k.val) v = { s with nonce := r } ∧ OneWord s.nonce r k v

/-- Rules R20, R21, R31: a write to CTRL without bit 31 sets IE and NSRC; a write to STATUS clears DONE and WERR where it has a
1; a write to a read-only or reserved offset is ignored. Idle or busy, nothing else changes. -/
def Obligations.ControlWrites : Prop :=
  ∀ (s : State) (v : Word),
    (v.getLsbD 31 = false → s.busWrite 0x008 v = { s with ie := v.getLsbD 0, nsrc := v.getLsbD 1 }) ∧
      s.busWrite 0x00C v = { s with done := s.done && !v.getLsbD 1, werr := s.werr && !v.getLsbD 16 } ∧
      ∀ off, (off = 0x000 ∨ off = 0x004 ∨ (0x018 ≤ off ∧ off < 0x100) ∨ (0x420 ≤ off ∧ off < 0x1000)) → off % 4 = 0 →
        s.busWrite off v = s

/-- Rules R32, R53: the eight word writes of WRF, WRX, WRY and WRNONCE load their register whole and change nothing else. -/
def Obligations.EightWordWritesLoadARegister : Prop :=
  ∀ (s : State) (v : Wide), s.busy = false →
    (∀ i : FReg, loadWide s (0x100 + 0x20 * i.val) v = { s with f := s.f.set i.val v }) ∧
      (∀ j : PReg, loadWide s (0x300 + 0x40 * j.val) v = { s with x := s.x.set j.val v }) ∧
      (∀ j : PReg, loadWide s (0x320 + 0x40 * j.val) v = { s with y := s.y.set j.val v }) ∧
      loadWide s 0x400 v = { s with nonce := v }

/-- Rules R29, R36, R37, R39, over the model's events, answers and faults (log entries 1, 3 and 10): an aligned 32-bit read in
the window is answered and changes nothing else; an aligned 32-bit write has its effect and no answer; an access that is not
32 bits wide, or not aligned, is the host program's fault; and so is every access outside the window, whatever the state. -/
def Obligations.ReadsAreServedAndBadAccessesFault : Prop :=
  (∀ (s : State) (addr bytes : Nat) (v : Word) (rest : List Event), addr < Config.base ∨ Config.base + 4096 ≤ addr →
    (s.inbox = .access (.read addr bytes) :: rest → step s = .fault .outsideWindow) ∧
      (s.inbox = .access (.write addr bytes v) :: rest → step s = .fault .outsideWindow)) ∧
  ∀ (s : State) (off bytes : Nat) (v : Word) (rest : List Event), s.inReset = false → off < 4096 →
    (s.inbox = .access (.read (Config.base + off) bytes) :: rest →
      (bytes = 4 → off % 4 = 0 → step s = .next { s with inbox := rest, resp := some (s.busRead off) }) ∧
        (bytes ≠ 4 → step s = .fault .badWidth) ∧ (bytes = 4 → off % 4 ≠ 0 → step s = .fault .misaligned)) ∧
      (s.inbox = .access (.write (Config.base + off) bytes v) :: rest →
        (bytes = 4 → off % 4 = 0 →
          step s = .next { ({ s with inbox := rest } : State).busWrite off v with resp := none }) ∧
        (bytes ≠ 4 → step s = .fault .badWidth) ∧ (bytes = 4 → off % 4 ≠ 0 → step s = .fault .misaligned))

/-- Rules R17, R39: NONCE cannot be read back, and no command but SIGN depends on it or changes it. -/
def Obligations.NonceIsHidden : Prop :=
  ∀ (s : State) (v : Wide),
    (∀ off, ({ s with nonce := v } : State).busRead off = s.busRead off) ∧
      ∀ (i : Instr) (t : State), isSign i = false → exec i s = .next t →
        t.nonce = s.nonce ∧ exec i { s with nonce := v } = .next { t with nonce := v }

/-- Rules R33, R34: byte `k` of a 256-bit value's big-endian encoding, from the value and from the bus word that holds it; and
the 65-byte encoding of a point register: 0x04, BE32 of x, BE32 of y where INF is 0, none where it is 1. -/
def Obligations.ByteEncodings : Prop :=
  (∀ (r : Wide) (k : Fin 32),
    (be32 r)[k.val]? = some (wideByte r k.val) ∧
      (wideByte r k.val).toNat = r.toNat / 2 ^ (248 - 8 * k.val) % 256 ∧
      (wideByte r k.val).toNat =
        (wideWord r ⟨k.val / 4, by omega⟩).toNat / 2 ^ (24 - 8 * (k.val % 4)) % 256) ∧
    ∀ (s : State) (j : PReg),
      (s.inf[j.val] = true → s.publicKey j = none) ∧
        (s.inf[j.val] = false → ∃ bs : List Byte, s.publicKey j = some bs ∧ bs.length = 65 ∧ bs[0]? = some 0x04#8 ∧
          ∀ k : Fin 32, bs[1 + k.val]? = some (wideByte s.x[j.val] k.val) ∧
            bs[33 + k.val]? = some (wideByte s.y[j.val] k.val))

/-! ### Field arithmetic (41_field.md) -/

/-- Rule R66: FADD, for every modulus, every choice of registers (equal ones included) and every state. -/
def Obligations.FaddCompletes : Prop :=
  ∀ (m : Modulus) (rd ra rb : FReg) (s : State),
    ∃ t, exec (.fadd m rd ra rb) s = .next t ∧
      t.f[rd.val].toNat = (s.f[ra.val].toNat % activeModulus m + s.f[rb.val].toNat % activeModulus m) % activeModulus m ∧
      CommandFrame s t none [rd] []

/-- Rule R67: FSUB, with the residue of the difference of the reduced operands, never negative. -/
def Obligations.FsubCompletes : Prop :=
  ∀ (m : Modulus) (rd ra rb : FReg) (s : State),
    ∃ t, exec (.fsub m rd ra rb) s = .next t ∧
      (t.f[rd.val].toNat : Int) =
        ((s.f[ra.val].toNat % activeModulus m : Nat) - (s.f[rb.val].toNat % activeModulus m : Nat) : Int) %
          (activeModulus m : Int) ∧
      CommandFrame s t none [rd] []

/-- Rule R68: FMUL. -/
def Obligations.FmulCompletes : Prop :=
  ∀ (m : Modulus) (rd ra rb : FReg) (s : State),
    ∃ t, exec (.fmul m rd ra rb) s = .next t ∧
      t.f[rd.val].toNat = (s.f[ra.val].toNat % activeModulus m) * (s.f[rb.val].toNat % activeModulus m) % activeModulus m ∧
      CommandFrame s t none [rd] []

/-- Rules R65, R69: FINV of a value that is not 0 under the modulus writes its inverse, Fermat's power; and, as the spec infers
in rule R65, the only number below the modulus whose product with the operand leaves 1. -/
def Obligations.FinvCompletes : Prop :=
  ∀ (m : Modulus) (rd ra : FReg) (s : State), s.f[ra.val].toNat % activeModulus m ≠ 0 →
    ∃ t, exec (.finv m rd ra) s = .next t ∧
      t.f[rd.val].toNat = (s.f[ra.val].toNat % activeModulus m) ^ (activeModulus m - 2) % activeModulus m ∧
      s.f[ra.val].toNat * t.f[rd.val].toNat % activeModulus m = 1 ∧
      (∀ y, y < activeModulus m → s.f[ra.val].toNat * y % activeModulus m = 1 → y = t.f[rd.val].toNat) ∧
      CommandFrame s t none [rd] []

/-- Rule R69: FINV of 0 or of the modulus ends with DIV_ZERO and writes nothing; the engine's hidden state is cleared (rule R26;
LCMD and LNSRC as 0 are the model's choice, log entry 11). -/
def Obligations.FinvOfZeroFails : Prop :=
  ∀ (m : Modulus) (rd ra : FReg) (s : State),
    (s.f[ra.val].toNat = 0 ∨ s.f[ra.val].toNat = activeModulus m) →
      exec (.finv m rd ra) s = .next (afterError s .divZero)

/-- Rule R101: DIV_ZERO is raised by FINV only, and ENTROPY_FAIL and SIG_DEGENERATE by SIGN only. -/
def Obligations.ErrorCodesByCommand : Prop :=
  ∀ (i : Instr) (s t : State) (e : CmdError), i.wellFormed = true → s.busy = true → exec i s = .next t →
    t.busy = false → t.err = some e →
    (e = .divZero ∧ ∃ m rd ra, i = .finv m rd ra) ∨
      (e = .invalidScalar ∧ ((∃ rd ra rb, i = .smul rd ra rb) ∨ (∃ rd ra, i = .derive rd ra) ∨ isSign i = true)) ∨
      ((e = .sigDegenerate ∨ e = .entropyFail) ∧ isSign i = true)

/-! ### Points (42_group.md) -/

/-- Rules R15, R16: a point register reads as Inf whatever its coordinates where INF is 1, else as the residues of its
coordinates; a point value written reads back. -/
def Obligations.PointRegistersReadAndWrite : Prop :=
  ∀ (s : State) (j : PReg),
    (s.inf[j.val] = true → s.readP j = .inf) ∧
      (s.inf[j.val] = false →
        s.readP j = .aff (s.x[j.val].toNat % Config.curve.p) (s.y[j.val].toNat % Config.curve.p)) ∧
      ∀ q, Reduced Config.curve q → (s.writeP j q).readP j = q ∧ HoldsPoint (s.writeP j q) j q

/-- Rules R72, R80: PDBL of Inf, of a point with y = 0, and of any other affine point, on the curve or off it. -/
def Obligations.PdblCompletes : Prop :=
  ∀ (rd ra : PReg) (s : State),
    ∃ t q, exec (.pdbl rd ra) s = .next t ∧ HoldsPoint t rd q ∧ CommandFrame s t none [] [rd] ∧
      (s.readP ra = .inf → q = .inf) ∧
      (∀ x, s.readP ra = .aff x 0 → q = .inf) ∧
      ∀ x y, s.readP ra = .aff x y → y ≠ 0 → TangentPoint Config.curve x y q

/-- Rules R73, R81: PADD in each branch of its tests, in their order, for every two operands. -/
def Obligations.PaddCompletes : Prop :=
  ∀ (rd ra rb : PReg) (s : State),
    ∃ t q, exec (.padd rd ra rb) s = .next t ∧ HoldsPoint t rd q ∧ CommandFrame s t none [] [rd] ∧
      (s.readP ra = .inf → q = s.readP rb) ∧
      (∀ x1 y1, s.readP ra = .aff x1 y1 → s.readP rb = .inf → q = .aff x1 y1) ∧
      ∀ x1 y1 x2 y2, s.readP ra = .aff x1 y1 → s.readP rb = .aff x2 y2 →
        (x1 = x2 → y1 ≠ y2 ∨ y1 = 0 → q = .inf) ∧
          (x1 = x2 → y1 = y2 → y1 ≠ 0 → TangentPoint Config.curve x1 y1 q) ∧
          (x1 ≠ x2 → ChordPoint Config.curve x1 y1 x2 y2 q)

/-- Rules R74, R82: PCHK sets ONCURVE to whether the register is Inf or its coordinates satisfy the curve equation modulo
p. -/
def Obligations.PchkCompletes : Prop :=
  ∀ (ra : PReg) (s : State),
    ∃ t, exec (.pchk ra) s = .next t ∧
      (t.onCurveFlag = true ↔ s.inf[ra.val] = true ∨
        s.y[ra.val].toNat ^ 2 ≡ s.x[ra.val].toNat ^ 3 + 7 [MOD Config.curve.p]) ∧
      t.eqFlag = s.eqFlag ∧ t.nonce = s.nonce ∧ CommitControl s t none ∧ FieldsBut s t [] ∧ PointsBut s t []

/-- Rules R75, R83: PEQ sets EQ to whether both registers are Inf, or neither is and their coordinates agree modulo p. -/
def Obligations.PeqCompletes : Prop :=
  ∀ (ra rb : PReg) (s : State),
    ∃ t, exec (.peq ra rb) s = .next t ∧
      (t.eqFlag = true ↔ (s.inf[ra.val] = true ∧ s.inf[rb.val] = true) ∨
        (s.inf[ra.val] = false ∧ s.inf[rb.val] = false ∧
          s.x[ra.val].toNat ≡ s.x[rb.val].toNat [MOD Config.curve.p] ∧
          s.y[ra.val].toNat ≡ s.y[rb.val].toNat [MOD Config.curve.p])) ∧
      t.onCurveFlag = s.onCurveFlag ∧ t.nonce = s.nonce ∧ CommitControl s t none ∧ FieldsBut s t [] ∧ PointsBut s t []

/-- Rule R84: PLDG writes the base point, by the digits of rule R3. -/
def Obligations.PldgCompletes : Prop :=
  ∀ (rd : PReg) (s : State),
    ∃ t, exec (.pldg rd) s = .next t ∧
      HoldsPoint t rd (.aff 0x79BE667EF9DCBBAC55A06295CE870B07029BFCDB2DCE28D959F2815B16F81798
        0x483ADA7726A3C4655DA4FBFC0E1108A8FD17B448A68554199C47D08FFB10D4B8) ∧
      CommandFrame s t none [] [rd]

/-- What the spec infers in rules R76 and R88 (b), and rule R77: on every two point values, on the curve or off it, doubling and
adding give a point value, as does multiplying (rule R86) by any scalar but 0: none raises an error. -/
def Obligations.GroupLawNeverFails : Prop :=
  ∀ q r : Point, Reduced Config.curve q → Reduced Config.curve r →
    (∃ d, ecDbl Config.curve q = .ok d ∧ Reduced Config.curve d) ∧
      (∃ a, ecAdd Config.curve q r = .ok a ∧ Reduced Config.curve a) ∧
      ∀ k, 1 ≤ k → ∃ u, ecMul Config.curve k q = .ok u ∧ Reduced Config.curve u

/-- Rule R78: doubling and adding keep on-curve points on the curve. -/
def Obligations.GroupLawStaysOnTheCurve : Prop :=
  ∀ q r d a : Point, Reduced Config.curve q → Reduced Config.curve r → onCurve Config.curve q = true →
    onCurve Config.curve r = true → ecDbl Config.curve q = .ok d → ecAdd Config.curve q r = .ok a →
    onCurve Config.curve d = true ∧ onCurve Config.curve a = true

/-! ### Scalars (43_scalar.md) -/

/-- Rule R86: double-and-add, most significant bit first, as a recurrence on the scalar, on any curve record and any point
value. -/
def Obligations.DoubleAndAddRecurrence : Prop :=
  ∀ (c : Curve) (q : Point) (k : Nat), 1 ≤ k →
    ecMul c 1 q = .ok q ∧
      ecMul c (2 * k) q =
        (match ecMul c k q with
        | .error e => .error e
        | .ok acc => ecDbl c acc) ∧
      ecMul c (2 * k + 1) q =
        (match ecMul c k q with
        | .error e => .error e
        | .ok acc =>
          match ecDbl c acc with
          | .error e => .error e
          | .ok d => ecAdd c d q)

/-- What the spec infers in rules R87 and R88 (f): the fixed 256-step loop from Inf gives the same result for every 256-bit
scalar but 0; multiples of Inf are Inf. -/
def Obligations.FixedLoopGivesTheSamePoint : Prop :=
  ∀ (c : Curve) (q : Point) (k : Nat), 1 ≤ k → k < 2 ^ 256 →
    fixedLoop c k q 256 (.ok .inf) = ecMul c k q ∧ ecMul c k .inf = .ok .inf

/-- Rules R86, R89: SMUL with a valid scalar writes the point `ecMul` gives for every point, Inf and off-curve points
included. -/
def Obligations.SmulCompletes : Prop :=
  ∀ (rd : PReg) (ra : FReg) (rb : PReg) (s : State), 1 ≤ s.f[ra.val].toNat → s.f[ra.val].toNat < Config.curve.n →
    ∃ t q, ecMul Config.curve s.f[ra.val].toNat (s.readP rb) = .ok q ∧ exec (.smul rd ra rb) s = .next t ∧
      HoldsPoint t rd q ∧ CommandFrame s t none [] [rd]

/-- Rules R85, R89, R90: SMUL and DERIVE with a scalar 0 or ≥ n end with INVALID_SCALAR and write nothing; the engine's hidden
state is cleared (rule R26; LCMD and LNSRC as 0 are the model's choice, log entry 11). -/
def Obligations.InvalidScalarsAreRejected : Prop :=
  ∀ (rd : PReg) (ra : FReg) (rb : PReg) (s : State), (s.f[ra.val].toNat = 0 ∨ Config.curve.n ≤ s.f[ra.val].toNat) →
    exec (.smul rd ra rb) s = .next (afterError s .invalidScalar) ∧
      exec (.derive rd ra) s = .next (afterError s .invalidScalar)

/-- Rule R90: DERIVE with a valid scalar writes the multiple of the base point; it gives the same state as PLDG into the
destination followed by SMUL with that register. -/
def Obligations.DeriveCompletes : Prop :=
  ∀ (rd : PReg) (ra : FReg) (s : State), 1 ≤ s.f[ra.val].toNat → s.f[ra.val].toNat < Config.curve.n →
    ∃ t q, ecMul Config.curve s.f[ra.val].toNat (.aff Config.curve.genX Config.curve.genY) = .ok q ∧
      exec (.derive rd ra) s = .next t ∧ HoldsPoint t rd q ∧ CommandFrame s t none [] [rd] ∧
      ∃ u, exec (.pldg rd) s = .next u ∧ exec (.smul rd ra rd) u = .next t

/-- What the spec infers in rule R88 (e): a valid multiple of the base point is never Inf, so DERIVE leaves its destination's INF flag 0. -/
def Obligations.DeriveIsNeverInfinity : Prop :=
  ∀ (rd : PReg) (ra : FReg) (s : State), 1 ≤ s.f[ra.val].toNat → s.f[ra.val].toNat < Config.curve.n →
    ∃ t, exec (.derive rd ra) s = .next t ∧ t.err = none ∧ t.inf[rd.val] = false

/-- What the spec infers in rule R91: the public key of d = 1, byte by byte. -/
def Obligations.PublicKeyOfOne : Prop :=
  ∀ (rd : PReg) (ra : FReg) (s : State), s.f[ra.val] = 1#256 →
    ∃ t, exec (.derive rd ra) s = .next t ∧ t.publicKey rd = some
      [0x04#8,
        0x79#8, 0xBE#8, 0x66#8, 0x7E#8, 0xF9#8, 0xDC#8, 0xBB#8, 0xAC#8, 0x55#8, 0xA0#8, 0x62#8, 0x95#8, 0xCE#8, 0x87#8,
        0x0B#8, 0x07#8, 0x02#8, 0x9B#8, 0xFC#8, 0xDB#8, 0x2D#8, 0xCE#8, 0x28#8, 0xD9#8, 0x59#8, 0xF2#8, 0x81#8, 0x5B#8,
        0x16#8, 0xF8#8, 0x17#8, 0x98#8,
        0x48#8, 0x3A#8, 0xDA#8, 0x77#8, 0x26#8, 0xA3#8, 0xC4#8, 0x65#8, 0x5D#8, 0xA4#8, 0xFB#8, 0xFC#8, 0x0E#8, 0x11#8,
        0x08#8, 0xA8#8, 0xFD#8, 0x17#8, 0xB4#8, 0x48#8, 0xA6#8, 0x85#8, 0x54#8, 0x19#8, 0x9C#8, 0x47#8, 0xD0#8, 0x8F#8,
        0xFB#8, 0x10#8, 0xD4#8, 0xB8#8]

/-! ### Signing (44_sign.md) -/

/-- Rules R92, R93, R96, R99: SIGN with its nonce in NONCE, when neither r nor s is 0, writes r = x(k·G) mod n and the s with
s·r ≡ d·r − k·z (mod n), and clears NONCE. -/
def Obligations.SignCompletes : Prop :=
  ∀ (rd ra rb : FReg) (s : State) (x y : Nat), rd.val % 2 = 0 → s.lnsrc = true →
    1 ≤ s.f[ra.val].toNat → s.f[ra.val].toNat < Config.curve.n → 1 ≤ s.nonce.toNat → s.nonce.toNat < Config.curve.n →
    ecMul Config.curve s.nonce.toNat (.aff Config.curve.genX Config.curve.genY) = .ok (.aff x y) →
    x % Config.curve.n ≠ 0 →
    ¬ (s.f[ra.val].toNat : Int) * ((x % Config.curve.n : Nat) : Int) ≡ (s.nonce.toNat : Int) * (s.f[rb.val].toNat : Int)
      [ZMOD Config.curve.n] →
    ∃ t r v, exec (.sign rd ra rb) s = .next t ∧ r = x % Config.curve.n ∧ v < Config.curve.n ∧ v ≠ 0 ∧
      (v : Int) * (r : Int) ≡
        (s.f[ra.val].toNat : Int) * (r : Int) - (s.nonce.toNat : Int) * (s.f[rb.val].toNat : Int) [ZMOD Config.curve.n] ∧
      t.f[rd.val].toNat = r ∧ (∀ rs : FReg, rs.val = rd.val + 1 → t.f[rs.val].toNat = v) ∧
      t.nonce = 0#256 ∧ KeepsFlags s t ∧ CommitControl s t none ∧
      (∀ i : FReg, i ≠ rd → i.val ≠ rd.val + 1 → t.f[i.val] = s.f[i.val]) ∧ PointsBut s t []

/-- Rules R92, R97: which error a SIGN reports, in the order of its checks; no register but NONCE is written, and the engine's
hidden state is cleared (rule R26; LCMD and LNSRC as 0 are the model's choice, log entry 11). -/
def Obligations.SignErrorsInOrder : Prop :=
  ∀ (rd ra rb : FReg) (s : State), rd.val % 2 = 0 →
    (s.f[ra.val].toNat = 0 ∨ Config.curve.n ≤ s.f[ra.val].toNat →
      exec (.sign rd ra rb) s = .next { afterError s .invalidScalar with nonce := 0#256 }) ∧
      (1 ≤ s.f[ra.val].toNat → s.f[ra.val].toNat < Config.curve.n → s.lnsrc = true →
        (s.nonce.toNat = 0 ∨ Config.curve.n ≤ s.nonce.toNat →
          exec (.sign rd ra rb) s = .next { afterError s .invalidScalar with nonce := 0#256 }) ∧
        ∀ x y, 1 ≤ s.nonce.toNat → s.nonce.toNat < Config.curve.n →
          ecMul Config.curve s.nonce.toNat (.aff Config.curve.genX Config.curve.genY) = .ok (.aff x y) →
          (x % Config.curve.n = 0 ∨
            (s.f[ra.val].toNat : Int) * ((x % Config.curve.n : Nat) : Int) ≡
              (s.nonce.toNat : Int) * (s.f[rb.val].toNat : Int) [ZMOD Config.curve.n]) →
          exec (.sign rd ra rb) s = .next { afterError s .sigDegenerate with nonce := 0#256 })

/-- Rule R94: with LNSRC = 0 the nonce is the first candidate in [1, n-1] among the first ENT_MAX_TRIES: SIGN then ends as it
would with that candidate in NONCE and LNSRC = 1. That the two runs agree on LNSRC too is that a commit clears it (rule R26, log
entry 11). -/
def Obligations.SignTakesFirstGoodCandidate : Prop :=
  ∀ (rd ra rb : FReg) (s t : State) (pre post : List Wide) (w : Wide), s.lnsrc = false →
    s.draws = pre ++ w :: post → pre.length < Config.entMaxTries → (∀ v ∈ pre, rejected v = true) → rejected w = false →
    exec (.sign rd ra rb) { s with lnsrc := true, nonce := w } = .next t → t.err ≠ some .illegalCmd →
    exec (.sign rd ra rb) s = .next t

/-- Rules R60, R94, decision D43, over the candidates drawn (log entry 7): with a valid private scalar and only rejected
candidates, SIGN waits while fewer than ENT_MAX_TRIES were drawn, and ends with ENTROPY_FAIL once ENT_MAX_TRIES were; the
engine's hidden state is then cleared (rule R26; LCMD and LNSRC as 0 are the model's choice, log entry 11). -/
def Obligations.SignWaitsThenFails : Prop :=
  ∀ (rd ra rb : FReg) (s : State), rd.val % 2 = 0 → s.lnsrc = false → 1 ≤ s.f[ra.val].toNat →
    s.f[ra.val].toNat < Config.curve.n → (∀ v ∈ s.draws, rejected v = true) →
    (s.draws.length < 4 → exec (.sign rd ra rb) s = .next s) ∧
      (4 ≤ s.draws.length → exec (.sign rd ra rb) s = .next { afterError s .entropyFail with nonce := 0#256 })

/-- Rules R94, R97, over the model's candidate events (log entry 7): the engine draws a candidate the port offers only for a SIGN that needs one: its private scalar in range,
LNSRC = 0, every candidate so far rejected and fewer than ENT_MAX_TRIES drawn; in every other case nothing changes. -/
def Obligations.CandidatesAreDrawnOnlyWhenNeeded : Prop :=
  ∀ (s : State) (w : Wide) (rest : List Event), s.inbox = .candidate w :: rest → s.inReset = false →
    (∀ rd ra rb, s.busy = true → decode s.lcmd = .ok (.sign rd ra rb) → s.lnsrc = false →
      validScalar Config.curve s.f[ra.val].toNat = true → (∀ v ∈ s.draws, rejected v = true) →
      s.draws.length < Config.entMaxTries →
      step s = .next { s with inbox := rest, draws := s.draws ++ [w] }) ∧
      ((s.busy = false ∨ s.lnsrc = true ∨ Config.entMaxTries ≤ s.draws.length ∨
          (∃ v ∈ s.draws.take Config.entMaxTries, rejected v = false) ∨
          (∀ rd ra rb, decode s.lcmd = .ok (.sign rd ra rb) → validScalar Config.curve s.f[ra.val].toNat = false)) →
        step s = .next { s with inbox := rest })

/-- Rule R95: every SIGN that commits clears NONCE, so a second SIGN with LNSRC = 1 and no NONCE write between them ends with
INVALID_SCALAR and writes nothing; the engine's hidden state is then cleared (rule R26; LCMD and LNSRC as 0 are the model's
choice, log entry 11). -/
def Obligations.NonceIsUsedOnce : Prop :=
  ∀ (rd ra rb rd' ra' rb' : FReg) (s t : State) (w : Word), rd.val % 2 = 0 → rd'.val % 2 = 0 → s.busy = true →
    exec (.sign rd ra rb) s = .next t → t.busy = false →
    t.nonce = 0#256 ∧
      (t.nsrc = true →
        exec (.sign rd' ra' rb') (t.accept w) = .next (afterError (t.accept w) .invalidScalar))

/-- Rule R92, and what the spec infers in rule R100: SIGN uses the hash z modulo n, whatever its value; and a hash ≡ 0 (mod n) makes s the private
scalar itself. -/
def Obligations.HashIsUsedModuloN : Prop :=
  (∀ d k z z' : Nat, z ≡ z' [MOD Config.curve.n] → signCore Config.curve d k z = signCore Config.curve d k z') ∧
    ∀ d k z r v : Nat, d < Config.curve.n → z % Config.curve.n = 0 →
      signCore Config.curve d k z = .ok (r, v) → v = d

/-! ### Reset and interrupt (60_exceptions.md, 70_reset_and_hazards.md) -/

/-- Rule R28: what reset leaves, read over the bus (every word of the register files and of NONCE, CTRL, STATUS, CMD, PINF, ID
and VERSION), the registers the bus cannot show, and what the point registers hold. -/
def Obligations.ResetValues : Prop :=
  State.reset.busRead 0x008 = 0#32 ∧ State.reset.busRead 0x00C = 0#32 ∧ State.reset.busRead 0x010 = 0#32 ∧
    State.reset.busRead 0x014 = 0x0000000F#32 ∧ State.reset.busRead 0x000 = 0x45434331#32 ∧
    State.reset.busRead 0x004 = 0x00010000#32 ∧
    (∀ k : Fin 200, State.reset.busRead (0x100 + 4 * k.val) = 0#32) ∧
    State.reset.nonce = 0#256 ∧ State.reset.lcmd = 0#32 ∧ State.reset.lnsrc = false ∧ State.reset.busy = false ∧
    State.reset.irq = false ∧ ∀ j : PReg, State.reset.readP j = .inf

/-- Rule R116: a write to CTRL with bit 31 set resets every register, CTRL included, whether or not a command executes, and
abandons it. -/
def Obligations.SoftResetIsAReset : Prop :=
  ∀ (s : State) (v : Word) (rest : List Event), s.inbox = writeEvent 0x008 v :: rest → s.inReset = false →
    v.getLsbD 31 = true → step s = .next { State.reset with inbox := rest }

/-- Rule R115: while the reset input is asserted no access is served and the engine does nothing; when it is released every
register holds its reset value, which in this model it takes at the assertion (log entry 6). -/
def Obligations.HardwareReset : Prop :=
  ∀ (s : State) (rest : List Event),
    (∀ b, s.inbox = .resetPin b :: rest → step s = .next { State.reset with inReset := b, inbox := rest }) ∧
      (s.inReset = true →
        (∀ off bytes, off < 4096 → s.inbox = .access (.read (Config.base + off) bytes) :: rest →
          step s = .next { s with inbox := rest, resp := none }) ∧
        (∀ off bytes v, off < 4096 → s.inbox = .access (.write (Config.base + off) bytes v) :: rest →
          step s = .next { s with inbox := rest, resp := none }) ∧
        (s.inbox = .engine :: rest → step s = .next { s with inbox := rest }) ∧
        (∀ w, s.inbox = .candidate w :: rest → step s = .next { s with inbox := rest }) ∧
        (s.inbox = [] → step s = .next s))

/-- Rule R106: irq is DONE and IE; it rises at a commit while IE = 1 or when IE is set while DONE = 1, is masked by IE = 0
without losing DONE, and falls by a 1 written to DONE, by acceptance and by the resets: under the reset input at its release as
rules R28 and R115 say, and already at its assertion by the model's choice (log entry 6). -/
def Obligations.InterruptFollowsDone : Prop :=
  (∀ s : State, s.irq = ((s.busRead 0x00C).getLsbD 1 && (s.busRead 0x008).getLsbD 0)) ∧
    (∀ (i : Instr) (s t : State), s.busy = true → exec i s = .next t → t.busy = false → t.irq = s.ie) ∧
    (∀ s : State, s.commitIllegal.irq = s.ie) ∧
    (∀ (s : State) (v : Word), v.getLsbD 31 = false →
      (s.busWrite 0x008 v).irq = (s.done && v.getLsbD 0) ∧ (s.busWrite 0x008 v).done = s.done) ∧
    (∀ (s : State) (v : Word), v.getLsbD 1 = true → (s.busWrite 0x00C v).irq = false) ∧
    (∀ (s : State) (w : Word), s.busy = false → (s.busWrite 0x010 w).irq = false) ∧
    (∀ (s : State) (v : Word), v.getLsbD 31 = true → (s.busWrite 0x008 v).irq = false) ∧
    ∀ (s : State) (b : Bool), (s.resetPin b).irq = false

/-! ### The invariant -/

/-- The engine's invariant holds right after reset. -/
def Obligations.ResetMeetsTheInvariant : Prop := State.reset.Inv

/-- From every state that meets the engine's invariant, reachable or not, every step gives a state that meets it: while a
command executes DONE and ERR read 0 (rules R55, R119), while none does nothing of the engine's hidden state is left (rule R26;
its value, log entry 11), the entropy discipline of rules R94 and R97 holds of the candidates held (log entry 7), and with the
reset input asserted every register is at reset (the model's choice, log entry 6). -/
def Obligations.StepKeepsTheInvariant : Prop :=
  ∀ s t : State, s.Inv → step s = .next t → t.Inv

/-- Rule R78 as an invariant of the machine: where every point register reads an on-curve point, it does so after every command
(of multiples the spec infers it in rule R88 (d)), and after every step but a host write to a coordinate or to PINF that takes
effect; such a write while BUSY = 1 is dropped. Which step is the engine's turn, and that the reset input acts at its
assertion, are the model's choices (log entries 1, 2 and 6). -/
def Obligations.StepKeepsPointsOnTheCurve : Prop :=
  ∀ s t : State, PointsOnCurve s →
    (∀ i, exec i s = .next t → PointsOnCurve t) ∧
      (step s = .next t →
        (∀ addr bytes v rest, s.inbox = .access (.write addr bytes v) :: rest →
          s.busy = true ∨ s.inReset = true ∨
            (addr ≠ Config.base + 0x014 ∧ (addr < Config.base + 0x300 ∨ Config.base + 0x400 ≤ addr))) →
        PointsOnCurve t)
end

