-- ==== Sys2Proof/Laws/Arith.lean ====
section
/-! SUPPORT. What the pure functions compute: `powMod` is the power of rule R8, `imod` the residue of rule R8, `inv` fails
exactly on 0 and never otherwise (rule R65), and a valid scalar is one in [1, n-1] (rule R85). -/

namespace Sys2Proof.Machine

-- Checks the theorems one after another: all at once they ask for more threads than the memory limit allows.
set_option Elab.async false

/-! ### imod -/

theorem imod_lt (a : Int) {m : Nat} (hm : 0 < m) : imod a m < m := by
  unfold imod
  have h1 := Int.emod_nonneg a (show (m : Int) ≠ 0 by omega)
  have h2 := Int.emod_lt_of_pos a (show (0 : Int) < m by omega)
  omega

theorem imod_cast (a : Int) {m : Nat} (hm : 0 < m) : ((imod a m : Nat) : Int) = a % (m : Int) := by
  unfold imod
  exact Int.toNat_of_nonneg (Int.emod_nonneg a (by omega))

@[simp] theorem imod_natCast (a m : Nat) : imod (a : Int) m = a % m := by
  unfold imod
  rw [← Int.natCast_mod, Int.toNat_natCast]

theorem imod_modEq (a : Int) {m : Nat} (hm : 0 < m) : ((imod a m : Nat) : Int) ≡ a [ZMOD m] := by
  rw [imod_cast a hm]
  exact Int.mod_modEq a m

/-! ### powMod -/

/-- One bit more of an exponent. -/
theorem mod_two_pow_bit (e i : Nat) :
    e % 2 ^ (i + 1) = e % 2 ^ i + 2 ^ i * (if e.testBit i then 1 else 0) := by
  rw [Nat.mod_pow_succ, Nat.testBit_eq_decide_div_mod_eq]
  rcases Nat.mod_two_eq_zero_or_one (e / 2 ^ i) with h | h <;> simp [h]

theorem powModLoop_eq (x e m : Nat) (i acc : Nat) :
    powModLoop x e m i acc ≡ acc ^ 2 ^ i * x ^ (e % 2 ^ i) [MOD m] := by
  induction i generalizing acc with
  | zero => simp [powModLoop, Nat.mod_one, Nat.ModEq]
  | succ i ih =>
    rw [powModLoop, mod_two_pow_bit]
    refine (ih _).trans ?_
    cases e.testBit i
    · simp only [Bool.false_eq_true, if_false, mul_zero, add_zero]
      have h : acc ^ 2 ^ (i + 1) = (acc * acc) ^ 2 ^ i := by ring
      rw [h]
      exact Nat.ModEq.mul_right _ ((Nat.mod_modEq _ m).pow _)
    · simp only [if_true, mul_one]
      have h : acc ^ 2 ^ (i + 1) * x ^ (e % 2 ^ i + 2 ^ i) =
          (acc * acc * x) ^ 2 ^ i * x ^ (e % 2 ^ i) := by ring
      rw [h]
      exact Nat.ModEq.mul_right _
        (((Nat.mod_modEq _ m).trans ((Nat.mod_modEq _ m).mul_right x)).pow _)

/-- `powMod` is the power of rule R8. -/
theorem powMod_eq (x e m : Nat) (hm : 0 < m) : powMod x e m = x ^ e % m := by
  have hlt : powMod x e m < m := by
    unfold powMod
    generalize hn : Nat.log2 e + 1 = i
    have key : ∀ j acc, acc < m → powModLoop x e m j acc < m := by
      intro j
      induction j with
      | zero => intro acc h; exact h
      | succ j ih =>
        intro acc _
        rw [powModLoop]
        apply ih
        split <;> exact Nat.mod_lt _ hm
    exact key i _ (Nat.mod_lt _ hm)
  have he : e % 2 ^ (Nat.log2 e + 1) = e := Nat.mod_eq_of_lt Nat.lt_log2_self
  have h := powModLoop_eq x e m (Nat.log2 e + 1) (1 % m)
  rw [he] at h
  have h1 : (1 % m) ^ 2 ^ (Nat.log2 e + 1) * x ^ e ≡ x ^ e [MOD m] := by
    simpa using ((Nat.mod_modEq 1 m).pow (2 ^ (Nat.log2 e + 1))).mul_right (x ^ e)
  have h2 : powMod x e m % m = x ^ e % m := h.trans h1
  rwa [Nat.mod_eq_of_lt hlt] at h2

/-! ### inv -/

theorem inv_error_iff (x m : Nat) : inv x m = .error .divZero ↔ x % m = 0 := by
  unfold inv
  split <;> simp_all

/-- Rule R65, away from 0. -/
theorem inv_ok (x m : Nat) (hm : 0 < m) (h : x % m ≠ 0) : inv x m = .ok ((x % m) ^ (m - 2) % m) := by
  unfold inv
  rw [if_neg h, powMod_eq _ _ _ hm]

/-- Rule R65 with a prime modulus: the inverse it answers is one. -/
theorem inv_spec {x m i : Nat} (hp : m.Prime) (h : inv x m = .ok i) : i < m ∧ x * i % m = 1 := by
  have h0 : x % m ≠ 0 := by
    intro h0
    rw [(inv_error_iff x m).2 h0] at h
    cases h
  rw [inv_ok x m hp.pos h0] at h
  injection h with h
  subst h
  refine ⟨Nat.mod_lt _ hp.pos, ?_⟩
  have hc : Nat.Coprime (x % m) m := by
    rw [Nat.coprime_comm]
    exact (Nat.Prime.coprime_iff_not_dvd hp).2 fun hd =>
      h0 (Nat.eq_zero_of_dvd_of_lt hd (Nat.mod_lt _ hp.pos))
  have hf : (x % m) ^ (m - 1) ≡ 1 [MOD m] := by
    rw [← Nat.totient_prime hp]
    exact Nat.ModEq.pow_totient hc
  have h2 := hp.two_le
  have : x * ((x % m) ^ (m - 2) % m) ≡ 1 [MOD m] := by
    calc x * ((x % m) ^ (m - 2) % m) ≡ (x % m) * (x % m) ^ (m - 2) [MOD m] :=
          Nat.ModEq.mul (Nat.mod_modEq x m).symm (Nat.mod_modEq _ m)
      _ = (x % m) ^ (m - 1) := by rw [← pow_succ']; congr 1; omega
      _ ≡ 1 [MOD m] := hf
  rw [Nat.ModEq, Nat.mod_eq_of_lt hp.one_lt] at this
  exact this

/-! ### Scalars and point values -/

theorem validScalar_iff (c : Curve) (k : Nat) : validScalar c k = true ↔ 1 ≤ k ∧ k < c.n := by
  simp [validScalar]

/-- The coordinates `readP` yields are in [0, p) (rule R15). -/
theorem readP_lt {s : State} {j : PReg} {x y : Nat} (h : s.readP j = .aff x y) :
    x < Config.curve.p ∧ y < Config.curve.p := by
  have hp : 0 < Config.curve.p := by decide
  unfold State.readP at h
  split at h
  · cases h
  · injection h with h1 h2
    subst h1 h2
    exact ⟨Nat.mod_lt _ hp, Nat.mod_lt _ hp⟩

/-- Both moduli are below 2^256 and above 2^255 (rule R64). -/
theorem activeModulus_bounds (m : Modulus) : 2 ^ 255 < activeModulus m ∧ activeModulus m < 2 ^ 256 := by
  cases m <;> decide

end Sys2Proof.Machine
end

