-- ==== Sys2Proof/Laws/Decode.lean ====
section
/-! SUPPORT. The fields of an assembled word are the fields it was assembled from, and each operand kind reads back what its
bits were made from (rules R46, R47). -/

namespace Sys2Proof

-- Checks the theorems one after another: all at once they ask for more threads than the memory limit allows.
set_option Elab.async false

@[simp] theorem fieldOpc_assemble (opc : BitVec 8) (rd ra rb : BitVec 4) (m : BitVec 1) :
    fieldOpc (assemble opc rd ra rb m) = opc := by
  ext i hi
  interval_cases i <;> simp [fieldOpc, assemble]

@[simp] theorem fieldRd_assemble (opc : BitVec 8) (rd ra rb : BitVec 4) (m : BitVec 1) :
    fieldRd (assemble opc rd ra rb m) = rd := by
  ext i hi
  interval_cases i <;> simp [fieldRd, assemble]

@[simp] theorem fieldRa_assemble (opc : BitVec 8) (rd ra rb : BitVec 4) (m : BitVec 1) :
    fieldRa (assemble opc rd ra rb m) = ra := by
  ext i hi
  interval_cases i <;> simp [fieldRa, assemble]

@[simp] theorem fieldRb_assemble (opc : BitVec 8) (rd ra rb : BitVec 4) (m : BitVec 1) :
    fieldRb (assemble opc rd ra rb m) = rb := by
  ext i hi
  interval_cases i <;> simp [fieldRb, assemble]

@[simp] theorem fieldM_assemble (opc : BitVec 8) (rd ra rb : BitVec 4) (m : BitVec 1) :
    fieldM (assemble opc rd ra rb m) = m := by
  ext i hi
  interval_cases i; simp [fieldM, assemble]

/-- No command sets a reserved bit. -/
@[simp] theorem fieldRes_assemble (opc : BitVec 8) (rd ra rb : BitVec 4) (m : BitVec 1) :
    fieldRes (assemble opc rd ra rb m) = 0#11 := by
  ext i hi
  interval_cases i <;> simp [fieldRes, assemble]

@[simp] theorem kindF_bitsF (r : FReg) : kindF (bitsF r) = r := by
  simp [kindF, bitsF]

@[simp] theorem kindP_bitsP (r : PReg) : kindP (bitsP r) = .ok r := by
  revert r; decide

@[simp] theorem kindM_bitsM (m : Modulus) : kindM (bitsM m) = m := by
  cases m <;> rfl

theorem kindE_bitsF (r : FReg) (h : FReg.isPair r = true) : kindE (bitsF r) = .ok r := by
  simp [kindE, bitsF, h]

@[simp] theorem kindZero_zero (k : Nat) : kindZero (0#k) = .ok () := by
  simp [kindZero]

/-- A word with no reserved bit is decoded by its row. -/
theorem decode_assemble (opc : BitVec 8) (rd ra rb : BitVec 4) (m : BitVec 1) :
    decode (assemble opc rd ra rb m) = decodeRow (assemble opc rd ra rb m) := by
  simp [decode]

/-- A word is the assembly of its own fields when no reserved bit is set. -/
theorem assemble_fields (w : Word) (h : fieldRes w = 0#11) :
    assemble (fieldOpc w) (fieldRd w) (fieldRa w) (fieldRb w) (fieldM w) = w := by
  have hres : ∀ j, 21 ≤ j → j < 32 → w.getLsbD j = false := by
    intro j h1 h2
    have hb : (fieldRes w).getLsbD (j - 21) = false := by rw [h]; simp
    have hj : 21 + (j - 21) = j := by omega
    have hk : j - 21 < 11 := by omega
    simpa [fieldRes, BitVec.getLsbD_extractLsb', hk, hj] using hb
  apply BitVec.eq_of_getLsbD_eq
  intro i hi
  by_cases h21 : 21 ≤ i
  · rw [hres i h21 hi]
    interval_cases i <;> simp [assemble]
  · interval_cases i <;>
      simp [assemble, fieldOpc, fieldRd, fieldRa, fieldRb, fieldM]

/-- The assembler of rule R46 keeps every operand bit: two commands of one opcode with equal words have equal fields. -/
theorem assemble_inj {o o' : BitVec 8} {d d' a a' b b' : BitVec 4} {m m' : BitVec 1}
    (h : assemble o d a b m = assemble o' d' a' b' m') : o = o' ∧ d = d' ∧ a = a' ∧ b = b' ∧ m = m' := by
  refine ⟨?_, ?_, ?_, ?_, ?_⟩
  · simpa using congrArg fieldOpc h
  · simpa using congrArg fieldRd h
  · simpa using congrArg fieldRa h
  · simpa using congrArg fieldRb h
  · simpa using congrArg fieldM h

end Sys2Proof
end

