-- ==== Sys2Proof/Laws/State.lean ====
section
/-! SUPPORT. One lemma per field of State per named update, so that no later proof unfolds a record update. -/

namespace Sys2Proof.Machine

-- Checks the theorems one after another: all at once they ask for more threads than the memory limit allows.
set_option Elab.async false

/-! ### writeF -/

@[simp] theorem writeF_f (s : State) (i : FReg) (v : Wide) : (s.writeF i v).f = s.f.set i.val v := rfl
@[simp] theorem writeF_x (s : State) (i : FReg) (v : Wide) : (s.writeF i v).x = s.x := rfl
@[simp] theorem writeF_y (s : State) (i : FReg) (v : Wide) : (s.writeF i v).y = s.y := rfl
@[simp] theorem writeF_inf (s : State) (i : FReg) (v : Wide) : (s.writeF i v).inf = s.inf := rfl
@[simp] theorem writeF_nonce (s : State) (i : FReg) (v : Wide) : (s.writeF i v).nonce = s.nonce := rfl
@[simp] theorem writeF_ie (s : State) (i : FReg) (v : Wide) : (s.writeF i v).ie = s.ie := rfl
@[simp] theorem writeF_nsrc (s : State) (i : FReg) (v : Wide) : (s.writeF i v).nsrc = s.nsrc := rfl
@[simp] theorem writeF_busy (s : State) (i : FReg) (v : Wide) : (s.writeF i v).busy = s.busy := rfl
@[simp] theorem writeF_done (s : State) (i : FReg) (v : Wide) : (s.writeF i v).done = s.done := rfl
@[simp] theorem writeF_err (s : State) (i : FReg) (v : Wide) : (s.writeF i v).err = s.err := rfl
@[simp] theorem writeF_onCurveFlag (s : State) (i : FReg) (v : Wide) : (s.writeF i v).onCurveFlag = s.onCurveFlag := rfl
@[simp] theorem writeF_eqFlag (s : State) (i : FReg) (v : Wide) : (s.writeF i v).eqFlag = s.eqFlag := rfl
@[simp] theorem writeF_werr (s : State) (i : FReg) (v : Wide) : (s.writeF i v).werr = s.werr := rfl
@[simp] theorem writeF_cmdLast (s : State) (i : FReg) (v : Wide) : (s.writeF i v).cmdLast = s.cmdLast := rfl
@[simp] theorem writeF_lcmd (s : State) (i : FReg) (v : Wide) : (s.writeF i v).lcmd = s.lcmd := rfl
@[simp] theorem writeF_lnsrc (s : State) (i : FReg) (v : Wide) : (s.writeF i v).lnsrc = s.lnsrc := rfl
@[simp] theorem writeF_draws (s : State) (i : FReg) (v : Wide) : (s.writeF i v).draws = s.draws := rfl
@[simp] theorem writeF_inReset (s : State) (i : FReg) (v : Wide) : (s.writeF i v).inReset = s.inReset := rfl
@[simp] theorem writeF_inbox (s : State) (i : FReg) (v : Wide) : (s.writeF i v).inbox = s.inbox := rfl
@[simp] theorem writeF_resp (s : State) (i : FReg) (v : Wide) : (s.writeF i v).resp = s.resp := rfl

/-! ### hostF -/

@[simp] theorem hostF_f (s : State) (i : FReg) (k : Fin 8) (v : Word) : (s.hostF i k v).f = s.f.set i.val (wideSetWord s.f[i.val] k v) := rfl
@[simp] theorem hostF_x (s : State) (i : FReg) (k : Fin 8) (v : Word) : (s.hostF i k v).x = s.x := rfl
@[simp] theorem hostF_y (s : State) (i : FReg) (k : Fin 8) (v : Word) : (s.hostF i k v).y = s.y := rfl
@[simp] theorem hostF_inf (s : State) (i : FReg) (k : Fin 8) (v : Word) : (s.hostF i k v).inf = s.inf := rfl
@[simp] theorem hostF_nonce (s : State) (i : FReg) (k : Fin 8) (v : Word) : (s.hostF i k v).nonce = s.nonce := rfl
@[simp] theorem hostF_ie (s : State) (i : FReg) (k : Fin 8) (v : Word) : (s.hostF i k v).ie = s.ie := rfl
@[simp] theorem hostF_nsrc (s : State) (i : FReg) (k : Fin 8) (v : Word) : (s.hostF i k v).nsrc = s.nsrc := rfl
@[simp] theorem hostF_busy (s : State) (i : FReg) (k : Fin 8) (v : Word) : (s.hostF i k v).busy = s.busy := rfl
@[simp] theorem hostF_done (s : State) (i : FReg) (k : Fin 8) (v : Word) : (s.hostF i k v).done = s.done := rfl
@[simp] theorem hostF_err (s : State) (i : FReg) (k : Fin 8) (v : Word) : (s.hostF i k v).err = s.err := rfl
@[simp] theorem hostF_onCurveFlag (s : State) (i : FReg) (k : Fin 8) (v : Word) : (s.hostF i k v).onCurveFlag = s.onCurveFlag := rfl
@[simp] theorem hostF_eqFlag (s : State) (i : FReg) (k : Fin 8) (v : Word) : (s.hostF i k v).eqFlag = s.eqFlag := rfl
@[simp] theorem hostF_werr (s : State) (i : FReg) (k : Fin 8) (v : Word) : (s.hostF i k v).werr = s.werr := rfl
@[simp] theorem hostF_cmdLast (s : State) (i : FReg) (k : Fin 8) (v : Word) : (s.hostF i k v).cmdLast = s.cmdLast := rfl
@[simp] theorem hostF_lcmd (s : State) (i : FReg) (k : Fin 8) (v : Word) : (s.hostF i k v).lcmd = s.lcmd := rfl
@[simp] theorem hostF_lnsrc (s : State) (i : FReg) (k : Fin 8) (v : Word) : (s.hostF i k v).lnsrc = s.lnsrc := rfl
@[simp] theorem hostF_draws (s : State) (i : FReg) (k : Fin 8) (v : Word) : (s.hostF i k v).draws = s.draws := rfl
@[simp] theorem hostF_inReset (s : State) (i : FReg) (k : Fin 8) (v : Word) : (s.hostF i k v).inReset = s.inReset := rfl
@[simp] theorem hostF_inbox (s : State) (i : FReg) (k : Fin 8) (v : Word) : (s.hostF i k v).inbox = s.inbox := rfl
@[simp] theorem hostF_resp (s : State) (i : FReg) (k : Fin 8) (v : Word) : (s.hostF i k v).resp = s.resp := rfl

/-! ### hostX -/

@[simp] theorem hostX_f (s : State) (j : PReg) (k : Fin 8) (v : Word) : (s.hostX j k v).f = s.f := rfl
@[simp] theorem hostX_x (s : State) (j : PReg) (k : Fin 8) (v : Word) : (s.hostX j k v).x = s.x.set j.val (wideSetWord s.x[j.val] k v) := rfl
@[simp] theorem hostX_y (s : State) (j : PReg) (k : Fin 8) (v : Word) : (s.hostX j k v).y = s.y := rfl
@[simp] theorem hostX_inf (s : State) (j : PReg) (k : Fin 8) (v : Word) : (s.hostX j k v).inf = s.inf := rfl
@[simp] theorem hostX_nonce (s : State) (j : PReg) (k : Fin 8) (v : Word) : (s.hostX j k v).nonce = s.nonce := rfl
@[simp] theorem hostX_ie (s : State) (j : PReg) (k : Fin 8) (v : Word) : (s.hostX j k v).ie = s.ie := rfl
@[simp] theorem hostX_nsrc (s : State) (j : PReg) (k : Fin 8) (v : Word) : (s.hostX j k v).nsrc = s.nsrc := rfl
@[simp] theorem hostX_busy (s : State) (j : PReg) (k : Fin 8) (v : Word) : (s.hostX j k v).busy = s.busy := rfl
@[simp] theorem hostX_done (s : State) (j : PReg) (k : Fin 8) (v : Word) : (s.hostX j k v).done = s.done := rfl
@[simp] theorem hostX_err (s : State) (j : PReg) (k : Fin 8) (v : Word) : (s.hostX j k v).err = s.err := rfl
@[simp] theorem hostX_onCurveFlag (s : State) (j : PReg) (k : Fin 8) (v : Word) : (s.hostX j k v).onCurveFlag = s.onCurveFlag := rfl
@[simp] theorem hostX_eqFlag (s : State) (j : PReg) (k : Fin 8) (v : Word) : (s.hostX j k v).eqFlag = s.eqFlag := rfl
@[simp] theorem hostX_werr (s : State) (j : PReg) (k : Fin 8) (v : Word) : (s.hostX j k v).werr = s.werr := rfl
@[simp] theorem hostX_cmdLast (s : State) (j : PReg) (k : Fin 8) (v : Word) : (s.hostX j k v).cmdLast = s.cmdLast := rfl
@[simp] theorem hostX_lcmd (s : State) (j : PReg) (k : Fin 8) (v : Word) : (s.hostX j k v).lcmd = s.lcmd := rfl
@[simp] theorem hostX_lnsrc (s : State) (j : PReg) (k : Fin 8) (v : Word) : (s.hostX j k v).lnsrc = s.lnsrc := rfl
@[simp] theorem hostX_draws (s : State) (j : PReg) (k : Fin 8) (v : Word) : (s.hostX j k v).draws = s.draws := rfl
@[simp] theorem hostX_inReset (s : State) (j : PReg) (k : Fin 8) (v : Word) : (s.hostX j k v).inReset = s.inReset := rfl
@[simp] theorem hostX_inbox (s : State) (j : PReg) (k : Fin 8) (v : Word) : (s.hostX j k v).inbox = s.inbox := rfl
@[simp] theorem hostX_resp (s : State) (j : PReg) (k : Fin 8) (v : Word) : (s.hostX j k v).resp = s.resp := rfl

/-! ### hostY -/

@[simp] theorem hostY_f (s : State) (j : PReg) (k : Fin 8) (v : Word) : (s.hostY j k v).f = s.f := rfl
@[simp] theorem hostY_x (s : State) (j : PReg) (k : Fin 8) (v : Word) : (s.hostY j k v).x = s.x := rfl
@[simp] theorem hostY_y (s : State) (j : PReg) (k : Fin 8) (v : Word) : (s.hostY j k v).y = s.y.set j.val (wideSetWord s.y[j.val] k v) := rfl
@[simp] theorem hostY_inf (s : State) (j : PReg) (k : Fin 8) (v : Word) : (s.hostY j k v).inf = s.inf := rfl
@[simp] theorem hostY_nonce (s : State) (j : PReg) (k : Fin 8) (v : Word) : (s.hostY j k v).nonce = s.nonce := rfl
@[simp] theorem hostY_ie (s : State) (j : PReg) (k : Fin 8) (v : Word) : (s.hostY j k v).ie = s.ie := rfl
@[simp] theorem hostY_nsrc (s : State) (j : PReg) (k : Fin 8) (v : Word) : (s.hostY j k v).nsrc = s.nsrc := rfl
@[simp] theorem hostY_busy (s : State) (j : PReg) (k : Fin 8) (v : Word) : (s.hostY j k v).busy = s.busy := rfl
@[simp] theorem hostY_done (s : State) (j : PReg) (k : Fin 8) (v : Word) : (s.hostY j k v).done = s.done := rfl
@[simp] theorem hostY_err (s : State) (j : PReg) (k : Fin 8) (v : Word) : (s.hostY j k v).err = s.err := rfl
@[simp] theorem hostY_onCurveFlag (s : State) (j : PReg) (k : Fin 8) (v : Word) : (s.hostY j k v).onCurveFlag = s.onCurveFlag := rfl
@[simp] theorem hostY_eqFlag (s : State) (j : PReg) (k : Fin 8) (v : Word) : (s.hostY j k v).eqFlag = s.eqFlag := rfl
@[simp] theorem hostY_werr (s : State) (j : PReg) (k : Fin 8) (v : Word) : (s.hostY j k v).werr = s.werr := rfl
@[simp] theorem hostY_cmdLast (s : State) (j : PReg) (k : Fin 8) (v : Word) : (s.hostY j k v).cmdLast = s.cmdLast := rfl
@[simp] theorem hostY_lcmd (s : State) (j : PReg) (k : Fin 8) (v : Word) : (s.hostY j k v).lcmd = s.lcmd := rfl
@[simp] theorem hostY_lnsrc (s : State) (j : PReg) (k : Fin 8) (v : Word) : (s.hostY j k v).lnsrc = s.lnsrc := rfl
@[simp] theorem hostY_draws (s : State) (j : PReg) (k : Fin 8) (v : Word) : (s.hostY j k v).draws = s.draws := rfl
@[simp] theorem hostY_inReset (s : State) (j : PReg) (k : Fin 8) (v : Word) : (s.hostY j k v).inReset = s.inReset := rfl
@[simp] theorem hostY_inbox (s : State) (j : PReg) (k : Fin 8) (v : Word) : (s.hostY j k v).inbox = s.inbox := rfl
@[simp] theorem hostY_resp (s : State) (j : PReg) (k : Fin 8) (v : Word) : (s.hostY j k v).resp = s.resp := rfl

/-! ### hostNonce -/

@[simp] theorem hostNonce_f (s : State) (k : Fin 8) (v : Word) : (s.hostNonce k v).f = s.f := rfl
@[simp] theorem hostNonce_x (s : State) (k : Fin 8) (v : Word) : (s.hostNonce k v).x = s.x := rfl
@[simp] theorem hostNonce_y (s : State) (k : Fin 8) (v : Word) : (s.hostNonce k v).y = s.y := rfl
@[simp] theorem hostNonce_inf (s : State) (k : Fin 8) (v : Word) : (s.hostNonce k v).inf = s.inf := rfl
@[simp] theorem hostNonce_nonce (s : State) (k : Fin 8) (v : Word) : (s.hostNonce k v).nonce = wideSetWord s.nonce k v := rfl
@[simp] theorem hostNonce_ie (s : State) (k : Fin 8) (v : Word) : (s.hostNonce k v).ie = s.ie := rfl
@[simp] theorem hostNonce_nsrc (s : State) (k : Fin 8) (v : Word) : (s.hostNonce k v).nsrc = s.nsrc := rfl
@[simp] theorem hostNonce_busy (s : State) (k : Fin 8) (v : Word) : (s.hostNonce k v).busy = s.busy := rfl
@[simp] theorem hostNonce_done (s : State) (k : Fin 8) (v : Word) : (s.hostNonce k v).done = s.done := rfl
@[simp] theorem hostNonce_err (s : State) (k : Fin 8) (v : Word) : (s.hostNonce k v).err = s.err := rfl
@[simp] theorem hostNonce_onCurveFlag (s : State) (k : Fin 8) (v : Word) : (s.hostNonce k v).onCurveFlag = s.onCurveFlag := rfl
@[simp] theorem hostNonce_eqFlag (s : State) (k : Fin 8) (v : Word) : (s.hostNonce k v).eqFlag = s.eqFlag := rfl
@[simp] theorem hostNonce_werr (s : State) (k : Fin 8) (v : Word) : (s.hostNonce k v).werr = s.werr := rfl
@[simp] theorem hostNonce_cmdLast (s : State) (k : Fin 8) (v : Word) : (s.hostNonce k v).cmdLast = s.cmdLast := rfl
@[simp] theorem hostNonce_lcmd (s : State) (k : Fin 8) (v : Word) : (s.hostNonce k v).lcmd = s.lcmd := rfl
@[simp] theorem hostNonce_lnsrc (s : State) (k : Fin 8) (v : Word) : (s.hostNonce k v).lnsrc = s.lnsrc := rfl
@[simp] theorem hostNonce_draws (s : State) (k : Fin 8) (v : Word) : (s.hostNonce k v).draws = s.draws := rfl
@[simp] theorem hostNonce_inReset (s : State) (k : Fin 8) (v : Word) : (s.hostNonce k v).inReset = s.inReset := rfl
@[simp] theorem hostNonce_inbox (s : State) (k : Fin 8) (v : Word) : (s.hostNonce k v).inbox = s.inbox := rfl
@[simp] theorem hostNonce_resp (s : State) (k : Fin 8) (v : Word) : (s.hostNonce k v).resp = s.resp := rfl

/-! ### hostPinf -/

@[simp] theorem hostPinf_f (s : State) (v : Word) : (s.hostPinf v).f = s.f := rfl
@[simp] theorem hostPinf_x (s : State) (v : Word) : (s.hostPinf v).x = s.x := rfl
@[simp] theorem hostPinf_y (s : State) (v : Word) : (s.hostPinf v).y = s.y := rfl
@[simp] theorem hostPinf_inf (s : State) (v : Word) : (s.hostPinf v).inf = #v[v.getLsbD 0, v.getLsbD 1, v.getLsbD 2, v.getLsbD 3] := rfl
@[simp] theorem hostPinf_nonce (s : State) (v : Word) : (s.hostPinf v).nonce = s.nonce := rfl
@[simp] theorem hostPinf_ie (s : State) (v : Word) : (s.hostPinf v).ie = s.ie := rfl
@[simp] theorem hostPinf_nsrc (s : State) (v : Word) : (s.hostPinf v).nsrc = s.nsrc := rfl
@[simp] theorem hostPinf_busy (s : State) (v : Word) : (s.hostPinf v).busy = s.busy := rfl
@[simp] theorem hostPinf_done (s : State) (v : Word) : (s.hostPinf v).done = s.done := rfl
@[simp] theorem hostPinf_err (s : State) (v : Word) : (s.hostPinf v).err = s.err := rfl
@[simp] theorem hostPinf_onCurveFlag (s : State) (v : Word) : (s.hostPinf v).onCurveFlag = s.onCurveFlag := rfl
@[simp] theorem hostPinf_eqFlag (s : State) (v : Word) : (s.hostPinf v).eqFlag = s.eqFlag := rfl
@[simp] theorem hostPinf_werr (s : State) (v : Word) : (s.hostPinf v).werr = s.werr := rfl
@[simp] theorem hostPinf_cmdLast (s : State) (v : Word) : (s.hostPinf v).cmdLast = s.cmdLast := rfl
@[simp] theorem hostPinf_lcmd (s : State) (v : Word) : (s.hostPinf v).lcmd = s.lcmd := rfl
@[simp] theorem hostPinf_lnsrc (s : State) (v : Word) : (s.hostPinf v).lnsrc = s.lnsrc := rfl
@[simp] theorem hostPinf_draws (s : State) (v : Word) : (s.hostPinf v).draws = s.draws := rfl
@[simp] theorem hostPinf_inReset (s : State) (v : Word) : (s.hostPinf v).inReset = s.inReset := rfl
@[simp] theorem hostPinf_inbox (s : State) (v : Word) : (s.hostPinf v).inbox = s.inbox := rfl
@[simp] theorem hostPinf_resp (s : State) (v : Word) : (s.hostPinf v).resp = s.resp := rfl

/-! ### setFlags -/

@[simp] theorem setFlags_f (s : State) (a b : Option Bool) : (s.setFlags a b).f = s.f := rfl
@[simp] theorem setFlags_x (s : State) (a b : Option Bool) : (s.setFlags a b).x = s.x := rfl
@[simp] theorem setFlags_y (s : State) (a b : Option Bool) : (s.setFlags a b).y = s.y := rfl
@[simp] theorem setFlags_inf (s : State) (a b : Option Bool) : (s.setFlags a b).inf = s.inf := rfl
@[simp] theorem setFlags_nonce (s : State) (a b : Option Bool) : (s.setFlags a b).nonce = s.nonce := rfl
@[simp] theorem setFlags_ie (s : State) (a b : Option Bool) : (s.setFlags a b).ie = s.ie := rfl
@[simp] theorem setFlags_nsrc (s : State) (a b : Option Bool) : (s.setFlags a b).nsrc = s.nsrc := rfl
@[simp] theorem setFlags_busy (s : State) (a b : Option Bool) : (s.setFlags a b).busy = s.busy := rfl
@[simp] theorem setFlags_done (s : State) (a b : Option Bool) : (s.setFlags a b).done = s.done := rfl
@[simp] theorem setFlags_err (s : State) (a b : Option Bool) : (s.setFlags a b).err = s.err := rfl
@[simp] theorem setFlags_onCurveFlag (s : State) (a b : Option Bool) : (s.setFlags a b).onCurveFlag = a.getD s.onCurveFlag := rfl
@[simp] theorem setFlags_eqFlag (s : State) (a b : Option Bool) : (s.setFlags a b).eqFlag = b.getD s.eqFlag := rfl
@[simp] theorem setFlags_werr (s : State) (a b : Option Bool) : (s.setFlags a b).werr = s.werr := rfl
@[simp] theorem setFlags_cmdLast (s : State) (a b : Option Bool) : (s.setFlags a b).cmdLast = s.cmdLast := rfl
@[simp] theorem setFlags_lcmd (s : State) (a b : Option Bool) : (s.setFlags a b).lcmd = s.lcmd := rfl
@[simp] theorem setFlags_lnsrc (s : State) (a b : Option Bool) : (s.setFlags a b).lnsrc = s.lnsrc := rfl
@[simp] theorem setFlags_draws (s : State) (a b : Option Bool) : (s.setFlags a b).draws = s.draws := rfl
@[simp] theorem setFlags_inReset (s : State) (a b : Option Bool) : (s.setFlags a b).inReset = s.inReset := rfl
@[simp] theorem setFlags_inbox (s : State) (a b : Option Bool) : (s.setFlags a b).inbox = s.inbox := rfl
@[simp] theorem setFlags_resp (s : State) (a b : Option Bool) : (s.setFlags a b).resp = s.resp := rfl

/-! ### hostStatus -/

@[simp] theorem hostStatus_f (s : State) (v : Word) : (s.hostStatus v).f = s.f := rfl
@[simp] theorem hostStatus_x (s : State) (v : Word) : (s.hostStatus v).x = s.x := rfl
@[simp] theorem hostStatus_y (s : State) (v : Word) : (s.hostStatus v).y = s.y := rfl
@[simp] theorem hostStatus_inf (s : State) (v : Word) : (s.hostStatus v).inf = s.inf := rfl
@[simp] theorem hostStatus_nonce (s : State) (v : Word) : (s.hostStatus v).nonce = s.nonce := rfl
@[simp] theorem hostStatus_ie (s : State) (v : Word) : (s.hostStatus v).ie = s.ie := rfl
@[simp] theorem hostStatus_nsrc (s : State) (v : Word) : (s.hostStatus v).nsrc = s.nsrc := rfl
@[simp] theorem hostStatus_busy (s : State) (v : Word) : (s.hostStatus v).busy = s.busy := rfl
@[simp] theorem hostStatus_done (s : State) (v : Word) : (s.hostStatus v).done = (s.done && !v.getLsbD 1) := rfl
@[simp] theorem hostStatus_err (s : State) (v : Word) : (s.hostStatus v).err = s.err := rfl
@[simp] theorem hostStatus_onCurveFlag (s : State) (v : Word) : (s.hostStatus v).onCurveFlag = s.onCurveFlag := rfl
@[simp] theorem hostStatus_eqFlag (s : State) (v : Word) : (s.hostStatus v).eqFlag = s.eqFlag := rfl
@[simp] theorem hostStatus_werr (s : State) (v : Word) : (s.hostStatus v).werr = (s.werr && !v.getLsbD 16) := rfl
@[simp] theorem hostStatus_cmdLast (s : State) (v : Word) : (s.hostStatus v).cmdLast = s.cmdLast := rfl
@[simp] theorem hostStatus_lcmd (s : State) (v : Word) : (s.hostStatus v).lcmd = s.lcmd := rfl
@[simp] theorem hostStatus_lnsrc (s : State) (v : Word) : (s.hostStatus v).lnsrc = s.lnsrc := rfl
@[simp] theorem hostStatus_draws (s : State) (v : Word) : (s.hostStatus v).draws = s.draws := rfl
@[simp] theorem hostStatus_inReset (s : State) (v : Word) : (s.hostStatus v).inReset = s.inReset := rfl
@[simp] theorem hostStatus_inbox (s : State) (v : Word) : (s.hostStatus v).inbox = s.inbox := rfl
@[simp] theorem hostStatus_resp (s : State) (v : Word) : (s.hostStatus v).resp = s.resp := rfl

/-! ### accept -/

@[simp] theorem accept_f (s : State) (w : Word) : (s.accept w).f = s.f := rfl
@[simp] theorem accept_x (s : State) (w : Word) : (s.accept w).x = s.x := rfl
@[simp] theorem accept_y (s : State) (w : Word) : (s.accept w).y = s.y := rfl
@[simp] theorem accept_inf (s : State) (w : Word) : (s.accept w).inf = s.inf := rfl
@[simp] theorem accept_nonce (s : State) (w : Word) : (s.accept w).nonce = s.nonce := rfl
@[simp] theorem accept_ie (s : State) (w : Word) : (s.accept w).ie = s.ie := rfl
@[simp] theorem accept_nsrc (s : State) (w : Word) : (s.accept w).nsrc = s.nsrc := rfl
@[simp] theorem accept_busy (s : State) (w : Word) : (s.accept w).busy = true := rfl
@[simp] theorem accept_done (s : State) (w : Word) : (s.accept w).done = false := rfl
@[simp] theorem accept_err (s : State) (w : Word) : (s.accept w).err = none := rfl
@[simp] theorem accept_onCurveFlag (s : State) (w : Word) : (s.accept w).onCurveFlag = s.onCurveFlag := rfl
@[simp] theorem accept_eqFlag (s : State) (w : Word) : (s.accept w).eqFlag = s.eqFlag := rfl
@[simp] theorem accept_werr (s : State) (w : Word) : (s.accept w).werr = s.werr := rfl
@[simp] theorem accept_cmdLast (s : State) (w : Word) : (s.accept w).cmdLast = w := rfl
@[simp] theorem accept_lcmd (s : State) (w : Word) : (s.accept w).lcmd = w := rfl
@[simp] theorem accept_lnsrc (s : State) (w : Word) : (s.accept w).lnsrc = s.nsrc := rfl
@[simp] theorem accept_draws (s : State) (w : Word) : (s.accept w).draws = [] := rfl
@[simp] theorem accept_inReset (s : State) (w : Word) : (s.accept w).inReset = s.inReset := rfl
@[simp] theorem accept_inbox (s : State) (w : Word) : (s.accept w).inbox = s.inbox := rfl
@[simp] theorem accept_resp (s : State) (w : Word) : (s.accept w).resp = s.resp := rfl

/-! ### finish -/

@[simp] theorem finish_f (s : State) (e : Option CmdError) : (s.finish e).f = s.f := rfl
@[simp] theorem finish_x (s : State) (e : Option CmdError) : (s.finish e).x = s.x := rfl
@[simp] theorem finish_y (s : State) (e : Option CmdError) : (s.finish e).y = s.y := rfl
@[simp] theorem finish_inf (s : State) (e : Option CmdError) : (s.finish e).inf = s.inf := rfl
@[simp] theorem finish_nonce (s : State) (e : Option CmdError) : (s.finish e).nonce = s.nonce := rfl
@[simp] theorem finish_ie (s : State) (e : Option CmdError) : (s.finish e).ie = s.ie := rfl
@[simp] theorem finish_nsrc (s : State) (e : Option CmdError) : (s.finish e).nsrc = s.nsrc := rfl
@[simp] theorem finish_busy (s : State) (e : Option CmdError) : (s.finish e).busy = false := rfl
@[simp] theorem finish_done (s : State) (e : Option CmdError) : (s.finish e).done = true := rfl
@[simp] theorem finish_err (s : State) (e : Option CmdError) : (s.finish e).err = e := rfl
@[simp] theorem finish_onCurveFlag (s : State) (e : Option CmdError) : (s.finish e).onCurveFlag = s.onCurveFlag := rfl
@[simp] theorem finish_eqFlag (s : State) (e : Option CmdError) : (s.finish e).eqFlag = s.eqFlag := rfl
@[simp] theorem finish_werr (s : State) (e : Option CmdError) : (s.finish e).werr = s.werr := rfl
@[simp] theorem finish_cmdLast (s : State) (e : Option CmdError) : (s.finish e).cmdLast = s.cmdLast := rfl
@[simp] theorem finish_lcmd (s : State) (e : Option CmdError) : (s.finish e).lcmd = 0#32 := rfl
@[simp] theorem finish_lnsrc (s : State) (e : Option CmdError) : (s.finish e).lnsrc = false := rfl
@[simp] theorem finish_draws (s : State) (e : Option CmdError) : (s.finish e).draws = [] := rfl
@[simp] theorem finish_inReset (s : State) (e : Option CmdError) : (s.finish e).inReset = s.inReset := rfl
@[simp] theorem finish_inbox (s : State) (e : Option CmdError) : (s.finish e).inbox = s.inbox := rfl
@[simp] theorem finish_resp (s : State) (e : Option CmdError) : (s.finish e).resp = s.resp := rfl

/-! ### softReset -/

@[simp] theorem softReset_f (s : State) : (s.softReset).f = Vector.replicate 16 0#256 := rfl
@[simp] theorem softReset_x (s : State) : (s.softReset).x = Vector.replicate 4 0#256 := rfl
@[simp] theorem softReset_y (s : State) : (s.softReset).y = Vector.replicate 4 0#256 := rfl
@[simp] theorem softReset_inf (s : State) : (s.softReset).inf = Vector.replicate 4 true := rfl
@[simp] theorem softReset_nonce (s : State) : (s.softReset).nonce = 0#256 := rfl
@[simp] theorem softReset_ie (s : State) : (s.softReset).ie = false := rfl
@[simp] theorem softReset_nsrc (s : State) : (s.softReset).nsrc = false := rfl
@[simp] theorem softReset_busy (s : State) : (s.softReset).busy = false := rfl
@[simp] theorem softReset_done (s : State) : (s.softReset).done = false := rfl
@[simp] theorem softReset_err (s : State) : (s.softReset).err = none := rfl
@[simp] theorem softReset_onCurveFlag (s : State) : (s.softReset).onCurveFlag = false := rfl
@[simp] theorem softReset_eqFlag (s : State) : (s.softReset).eqFlag = false := rfl
@[simp] theorem softReset_werr (s : State) : (s.softReset).werr = false := rfl
@[simp] theorem softReset_cmdLast (s : State) : (s.softReset).cmdLast = 0#32 := rfl
@[simp] theorem softReset_lcmd (s : State) : (s.softReset).lcmd = 0#32 := rfl
@[simp] theorem softReset_lnsrc (s : State) : (s.softReset).lnsrc = false := rfl
@[simp] theorem softReset_draws (s : State) : (s.softReset).draws = [] := rfl
@[simp] theorem softReset_inReset (s : State) : (s.softReset).inReset = false := rfl
@[simp] theorem softReset_inbox (s : State) : (s.softReset).inbox = s.inbox := rfl
@[simp] theorem softReset_resp (s : State) : (s.softReset).resp = none := rfl

/-! ### resetPin -/

@[simp] theorem resetPin_f (s : State) (b : Bool) : (s.resetPin b).f = Vector.replicate 16 0#256 := rfl
@[simp] theorem resetPin_x (s : State) (b : Bool) : (s.resetPin b).x = Vector.replicate 4 0#256 := rfl
@[simp] theorem resetPin_y (s : State) (b : Bool) : (s.resetPin b).y = Vector.replicate 4 0#256 := rfl
@[simp] theorem resetPin_inf (s : State) (b : Bool) : (s.resetPin b).inf = Vector.replicate 4 true := rfl
@[simp] theorem resetPin_nonce (s : State) (b : Bool) : (s.resetPin b).nonce = 0#256 := rfl
@[simp] theorem resetPin_ie (s : State) (b : Bool) : (s.resetPin b).ie = false := rfl
@[simp] theorem resetPin_nsrc (s : State) (b : Bool) : (s.resetPin b).nsrc = false := rfl
@[simp] theorem resetPin_busy (s : State) (b : Bool) : (s.resetPin b).busy = false := rfl
@[simp] theorem resetPin_done (s : State) (b : Bool) : (s.resetPin b).done = false := rfl
@[simp] theorem resetPin_err (s : State) (b : Bool) : (s.resetPin b).err = none := rfl
@[simp] theorem resetPin_onCurveFlag (s : State) (b : Bool) : (s.resetPin b).onCurveFlag = false := rfl
@[simp] theorem resetPin_eqFlag (s : State) (b : Bool) : (s.resetPin b).eqFlag = false := rfl
@[simp] theorem resetPin_werr (s : State) (b : Bool) : (s.resetPin b).werr = false := rfl
@[simp] theorem resetPin_cmdLast (s : State) (b : Bool) : (s.resetPin b).cmdLast = 0#32 := rfl
@[simp] theorem resetPin_lcmd (s : State) (b : Bool) : (s.resetPin b).lcmd = 0#32 := rfl
@[simp] theorem resetPin_lnsrc (s : State) (b : Bool) : (s.resetPin b).lnsrc = false := rfl
@[simp] theorem resetPin_draws (s : State) (b : Bool) : (s.resetPin b).draws = [] := rfl
@[simp] theorem resetPin_inReset (s : State) (b : Bool) : (s.resetPin b).inReset = b := rfl
@[simp] theorem resetPin_inbox (s : State) (b : Bool) : (s.resetPin b).inbox = s.inbox := rfl
@[simp] theorem resetPin_resp (s : State) (b : Bool) : (s.resetPin b).resp = none := rfl

/-! ### writeP -/

@[simp] theorem writeP_f (s : State) (j : PReg) (q : Point) : (s.writeP j q).f = s.f := by
  cases q <;> rfl
@[simp] theorem writeP_inf_x (s : State) (j : PReg) : (s.writeP j .inf).x = s.x.set j.val 0#256 := rfl
@[simp] theorem writeP_aff_x (s : State) (j : PReg) (x y : Nat) :
    (s.writeP j (.aff x y)).x = s.x.set j.val (BitVec.ofNat 256 x) := rfl
@[simp] theorem writeP_inf_y (s : State) (j : PReg) : (s.writeP j .inf).y = s.y.set j.val 0#256 := rfl
@[simp] theorem writeP_aff_y (s : State) (j : PReg) (x y : Nat) :
    (s.writeP j (.aff x y)).y = s.y.set j.val (BitVec.ofNat 256 y) := rfl
@[simp] theorem writeP_inf_inf (s : State) (j : PReg) : (s.writeP j .inf).inf = s.inf.set j.val true := rfl
@[simp] theorem writeP_aff_inf (s : State) (j : PReg) (x y : Nat) :
    (s.writeP j (.aff x y)).inf = s.inf.set j.val false := rfl
@[simp] theorem writeP_nonce (s : State) (j : PReg) (q : Point) : (s.writeP j q).nonce = s.nonce := by
  cases q <;> rfl
@[simp] theorem writeP_ie (s : State) (j : PReg) (q : Point) : (s.writeP j q).ie = s.ie := by
  cases q <;> rfl
@[simp] theorem writeP_nsrc (s : State) (j : PReg) (q : Point) : (s.writeP j q).nsrc = s.nsrc := by
  cases q <;> rfl
@[simp] theorem writeP_busy (s : State) (j : PReg) (q : Point) : (s.writeP j q).busy = s.busy := by
  cases q <;> rfl
@[simp] theorem writeP_done (s : State) (j : PReg) (q : Point) : (s.writeP j q).done = s.done := by
  cases q <;> rfl
@[simp] theorem writeP_err (s : State) (j : PReg) (q : Point) : (s.writeP j q).err = s.err := by
  cases q <;> rfl
@[simp] theorem writeP_onCurveFlag (s : State) (j : PReg) (q : Point) : (s.writeP j q).onCurveFlag = s.onCurveFlag := by
  cases q <;> rfl
@[simp] theorem writeP_eqFlag (s : State) (j : PReg) (q : Point) : (s.writeP j q).eqFlag = s.eqFlag := by
  cases q <;> rfl
@[simp] theorem writeP_werr (s : State) (j : PReg) (q : Point) : (s.writeP j q).werr = s.werr := by
  cases q <;> rfl
@[simp] theorem writeP_cmdLast (s : State) (j : PReg) (q : Point) : (s.writeP j q).cmdLast = s.cmdLast := by
  cases q <;> rfl
@[simp] theorem writeP_lcmd (s : State) (j : PReg) (q : Point) : (s.writeP j q).lcmd = s.lcmd := by
  cases q <;> rfl
@[simp] theorem writeP_lnsrc (s : State) (j : PReg) (q : Point) : (s.writeP j q).lnsrc = s.lnsrc := by
  cases q <;> rfl
@[simp] theorem writeP_draws (s : State) (j : PReg) (q : Point) : (s.writeP j q).draws = s.draws := by
  cases q <;> rfl
@[simp] theorem writeP_inReset (s : State) (j : PReg) (q : Point) : (s.writeP j q).inReset = s.inReset := by
  cases q <;> rfl
@[simp] theorem writeP_inbox (s : State) (j : PReg) (q : Point) : (s.writeP j q).inbox = s.inbox := by
  cases q <;> rfl
@[simp] theorem writeP_resp (s : State) (j : PReg) (q : Point) : (s.writeP j q).resp = s.resp := by
  cases q <;> rfl

/-! ### Reset -/

@[simp] theorem reset_f : State.reset.f = Vector.replicate 16 0#256 := rfl
@[simp] theorem reset_x : State.reset.x = Vector.replicate 4 0#256 := rfl
@[simp] theorem reset_y : State.reset.y = Vector.replicate 4 0#256 := rfl
@[simp] theorem reset_inf : State.reset.inf = Vector.replicate 4 true := rfl
@[simp] theorem reset_nonce : State.reset.nonce = 0#256 := rfl
@[simp] theorem reset_ie : State.reset.ie = false := rfl
@[simp] theorem reset_nsrc : State.reset.nsrc = false := rfl
@[simp] theorem reset_busy : State.reset.busy = false := rfl
@[simp] theorem reset_done : State.reset.done = false := rfl
@[simp] theorem reset_err : State.reset.err = none := rfl
@[simp] theorem reset_onCurveFlag : State.reset.onCurveFlag = false := rfl
@[simp] theorem reset_eqFlag : State.reset.eqFlag = false := rfl
@[simp] theorem reset_werr : State.reset.werr = false := rfl
@[simp] theorem reset_cmdLast : State.reset.cmdLast = 0#32 := rfl
@[simp] theorem reset_lcmd : State.reset.lcmd = 0#32 := rfl
@[simp] theorem reset_lnsrc : State.reset.lnsrc = false := rfl
@[simp] theorem reset_draws : State.reset.draws = [] := rfl
@[simp] theorem reset_inReset : State.reset.inReset = false := rfl
@[simp] theorem reset_inbox : State.reset.inbox = [] := rfl
@[simp] theorem reset_resp : State.reset.resp = none := rfl

end Sys2Proof.Machine
end

