-- ==== Sys2Proof/Laws/Ops.lean ====
section
/-! SUPPORT. What the shared operations can do: staged writes touch only the register files, a commit sets BUSY, DONE and ERR and
keeps every control register (rule R58), every command answers a next state, and one step is one of a few things. -/

namespace Sys2Proof.Machine

-- Checks the theorems one after another: all at once they ask for more threads than the memory limit allows.
set_option Elab.async false

/-! ### Staged writes leave everything but the register files -/

@[simp] theorem applyWrite_nonce (s : State) (w : Write) : (s.applyWrite w).nonce = s.nonce := by
  cases w <;> simp [State.applyWrite]

@[simp] theorem applyWrites_nonce (s : State) (ws : List Write) : (s.applyWrites ws).nonce = s.nonce := by
  induction ws generalizing s with
  | nil => rfl
  | cons w ws ih => simp [State.applyWrites, ih]

@[simp] theorem applyWrite_ie (s : State) (w : Write) : (s.applyWrite w).ie = s.ie := by
  cases w <;> simp [State.applyWrite]

@[simp] theorem applyWrites_ie (s : State) (ws : List Write) : (s.applyWrites ws).ie = s.ie := by
  induction ws generalizing s with
  | nil => rfl
  | cons w ws ih => simp [State.applyWrites, ih]

@[simp] theorem applyWrite_nsrc (s : State) (w : Write) : (s.applyWrite w).nsrc = s.nsrc := by
  cases w <;> simp [State.applyWrite]

@[simp] theorem applyWrites_nsrc (s : State) (ws : List Write) : (s.applyWrites ws).nsrc = s.nsrc := by
  induction ws generalizing s with
  | nil => rfl
  | cons w ws ih => simp [State.applyWrites, ih]

@[simp] theorem applyWrite_busy (s : State) (w : Write) : (s.applyWrite w).busy = s.busy := by
  cases w <;> simp [State.applyWrite]

@[simp] theorem applyWrites_busy (s : State) (ws : List Write) : (s.applyWrites ws).busy = s.busy := by
  induction ws generalizing s with
  | nil => rfl
  | cons w ws ih => simp [State.applyWrites, ih]

@[simp] theorem applyWrite_done (s : State) (w : Write) : (s.applyWrite w).done = s.done := by
  cases w <;> simp [State.applyWrite]

@[simp] theorem applyWrites_done (s : State) (ws : List Write) : (s.applyWrites ws).done = s.done := by
  induction ws generalizing s with
  | nil => rfl
  | cons w ws ih => simp [State.applyWrites, ih]

@[simp] theorem applyWrite_err (s : State) (w : Write) : (s.applyWrite w).err = s.err := by
  cases w <;> simp [State.applyWrite]

@[simp] theorem applyWrites_err (s : State) (ws : List Write) : (s.applyWrites ws).err = s.err := by
  induction ws generalizing s with
  | nil => rfl
  | cons w ws ih => simp [State.applyWrites, ih]

@[simp] theorem applyWrite_onCurveFlag (s : State) (w : Write) : (s.applyWrite w).onCurveFlag = s.onCurveFlag := by
  cases w <;> simp [State.applyWrite]

@[simp] theorem applyWrites_onCurveFlag (s : State) (ws : List Write) : (s.applyWrites ws).onCurveFlag = s.onCurveFlag := by
  induction ws generalizing s with
  | nil => rfl
  | cons w ws ih => simp [State.applyWrites, ih]

@[simp] theorem applyWrite_eqFlag (s : State) (w : Write) : (s.applyWrite w).eqFlag = s.eqFlag := by
  cases w <;> simp [State.applyWrite]

@[simp] theorem applyWrites_eqFlag (s : State) (ws : List Write) : (s.applyWrites ws).eqFlag = s.eqFlag := by
  induction ws generalizing s with
  | nil => rfl
  | cons w ws ih => simp [State.applyWrites, ih]

@[simp] theorem applyWrite_werr (s : State) (w : Write) : (s.applyWrite w).werr = s.werr := by
  cases w <;> simp [State.applyWrite]

@[simp] theorem applyWrites_werr (s : State) (ws : List Write) : (s.applyWrites ws).werr = s.werr := by
  induction ws generalizing s with
  | nil => rfl
  | cons w ws ih => simp [State.applyWrites, ih]

@[simp] theorem applyWrite_cmdLast (s : State) (w : Write) : (s.applyWrite w).cmdLast = s.cmdLast := by
  cases w <;> simp [State.applyWrite]

@[simp] theorem applyWrites_cmdLast (s : State) (ws : List Write) : (s.applyWrites ws).cmdLast = s.cmdLast := by
  induction ws generalizing s with
  | nil => rfl
  | cons w ws ih => simp [State.applyWrites, ih]

@[simp] theorem applyWrite_lcmd (s : State) (w : Write) : (s.applyWrite w).lcmd = s.lcmd := by
  cases w <;> simp [State.applyWrite]

@[simp] theorem applyWrites_lcmd (s : State) (ws : List Write) : (s.applyWrites ws).lcmd = s.lcmd := by
  induction ws generalizing s with
  | nil => rfl
  | cons w ws ih => simp [State.applyWrites, ih]

@[simp] theorem applyWrite_lnsrc (s : State) (w : Write) : (s.applyWrite w).lnsrc = s.lnsrc := by
  cases w <;> simp [State.applyWrite]

@[simp] theorem applyWrites_lnsrc (s : State) (ws : List Write) : (s.applyWrites ws).lnsrc = s.lnsrc := by
  induction ws generalizing s with
  | nil => rfl
  | cons w ws ih => simp [State.applyWrites, ih]

@[simp] theorem applyWrite_draws (s : State) (w : Write) : (s.applyWrite w).draws = s.draws := by
  cases w <;> simp [State.applyWrite]

@[simp] theorem applyWrites_draws (s : State) (ws : List Write) : (s.applyWrites ws).draws = s.draws := by
  induction ws generalizing s with
  | nil => rfl
  | cons w ws ih => simp [State.applyWrites, ih]

@[simp] theorem applyWrite_inReset (s : State) (w : Write) : (s.applyWrite w).inReset = s.inReset := by
  cases w <;> simp [State.applyWrite]

@[simp] theorem applyWrites_inReset (s : State) (ws : List Write) : (s.applyWrites ws).inReset = s.inReset := by
  induction ws generalizing s with
  | nil => rfl
  | cons w ws ih => simp [State.applyWrites, ih]

@[simp] theorem applyWrite_inbox (s : State) (w : Write) : (s.applyWrite w).inbox = s.inbox := by
  cases w <;> simp [State.applyWrite]

@[simp] theorem applyWrites_inbox (s : State) (ws : List Write) : (s.applyWrites ws).inbox = s.inbox := by
  induction ws generalizing s with
  | nil => rfl
  | cons w ws ih => simp [State.applyWrites, ih]

@[simp] theorem applyWrite_resp (s : State) (w : Write) : (s.applyWrite w).resp = s.resp := by
  cases w <;> simp [State.applyWrite]

@[simp] theorem applyWrites_resp (s : State) (ws : List Write) : (s.applyWrites ws).resp = s.resp := by
  induction ws generalizing s with
  | nil => rfl
  | cons w ws ih => simp [State.applyWrites, ih]

/-! ### The commit -/

@[simp] theorem commit_nonce (s : State) (r : Except CmdError Staged) : (s.commit r).nonce = s.nonce := by
  cases r <;> simp [State.commit]

@[simp] theorem commit_ie (s : State) (r : Except CmdError Staged) : (s.commit r).ie = s.ie := by
  cases r <;> simp [State.commit]

@[simp] theorem commit_nsrc (s : State) (r : Except CmdError Staged) : (s.commit r).nsrc = s.nsrc := by
  cases r <;> simp [State.commit]

@[simp] theorem commit_werr (s : State) (r : Except CmdError Staged) : (s.commit r).werr = s.werr := by
  cases r <;> simp [State.commit]

@[simp] theorem commit_cmdLast (s : State) (r : Except CmdError Staged) : (s.commit r).cmdLast = s.cmdLast := by
  cases r <;> simp [State.commit]

@[simp] theorem commit_lcmd (s : State) (r : Except CmdError Staged) : (s.commit r).lcmd = 0#32 := by
  cases r <;> simp [State.commit]

@[simp] theorem commit_lnsrc (s : State) (r : Except CmdError Staged) : (s.commit r).lnsrc = false := by
  cases r <;> simp [State.commit]

@[simp] theorem commit_inReset (s : State) (r : Except CmdError Staged) : (s.commit r).inReset = s.inReset := by
  cases r <;> simp [State.commit]

@[simp] theorem commit_inbox (s : State) (r : Except CmdError Staged) : (s.commit r).inbox = s.inbox := by
  cases r <;> simp [State.commit]

@[simp] theorem commit_resp (s : State) (r : Except CmdError Staged) : (s.commit r).resp = s.resp := by
  cases r <;> simp [State.commit]

@[simp] theorem commit_busy (s : State) (r : Except CmdError Staged) : (s.commit r).busy = false := by
  cases r <;> simp [State.commit]

@[simp] theorem commit_done (s : State) (r : Except CmdError Staged) : (s.commit r).done = true := by
  cases r <;> simp [State.commit]

@[simp] theorem commit_draws (s : State) (r : Except CmdError Staged) : (s.commit r).draws = [] := by
  cases r <;> simp [State.commit]

@[simp] theorem commit_ok_err (s : State) (st : Staged) : (s.commit (.ok st)).err = none := rfl

@[simp] theorem commit_error_err (s : State) (e : CmdError) : (s.commit (.error e)).err = some e := rfl

/-- Rule R58: on an error nothing else is written. -/
theorem commit_error (s : State) (e : CmdError) : s.commit (.error e) = s.finish (some e) := rfl

@[simp] theorem commit_ok_onCurveFlag (s : State) (st : Staged) :
    (s.commit (.ok st)).onCurveFlag = st.onCurve.getD s.onCurveFlag := by
  simp [State.commit]

@[simp] theorem commit_ok_eqFlag (s : State) (st : Staged) :
    (s.commit (.ok st)).eqFlag = st.eq.getD s.eqFlag := by
  simp [State.commit]

@[simp] theorem commit_ok_f (s : State) (st : Staged) :
    (s.commit (.ok st)).f = (s.applyWrites st.writes).f := by
  simp [State.commit]

@[simp] theorem commit_error_f (s : State) (e : CmdError) : (s.commit (.error e)).f = s.f := rfl

@[simp] theorem commit_ok_x (s : State) (st : Staged) :
    (s.commit (.ok st)).x = (s.applyWrites st.writes).x := by
  simp [State.commit]

@[simp] theorem commit_error_x (s : State) (e : CmdError) : (s.commit (.error e)).x = s.x := rfl

@[simp] theorem commit_ok_y (s : State) (st : Staged) :
    (s.commit (.ok st)).y = (s.applyWrites st.writes).y := by
  simp [State.commit]

@[simp] theorem commit_error_y (s : State) (e : CmdError) : (s.commit (.error e)).y = s.y := rfl

@[simp] theorem commit_ok_inf (s : State) (st : Staged) :
    (s.commit (.ok st)).inf = (s.applyWrites st.writes).inf := by
  simp [State.commit]

@[simp] theorem commit_error_inf (s : State) (e : CmdError) : (s.commit (.error e)).inf = s.inf := rfl

@[simp] theorem commit_error_onCurveFlag (s : State) (e : CmdError) :
    (s.commit (.error e)).onCurveFlag = s.onCurveFlag := rfl

@[simp] theorem commit_error_eqFlag (s : State) (e : CmdError) : (s.commit (.error e)).eqFlag = s.eqFlag := rfl

/-! ### SIGN's commit (rule R95) -/

@[simp] theorem commitSign_nonce (s : State) (r : Except CmdError Staged) : (s.commitSign r).nonce = 0#256 := rfl

@[simp] theorem commitSign_f (s : State) (r : Except CmdError Staged) :
    (s.commitSign r).f = (s.commit r).f := rfl

@[simp] theorem commitSign_x (s : State) (r : Except CmdError Staged) :
    (s.commitSign r).x = (s.commit r).x := rfl

@[simp] theorem commitSign_y (s : State) (r : Except CmdError Staged) :
    (s.commitSign r).y = (s.commit r).y := rfl

@[simp] theorem commitSign_inf (s : State) (r : Except CmdError Staged) :
    (s.commitSign r).inf = (s.commit r).inf := rfl

@[simp] theorem commitSign_ie (s : State) (r : Except CmdError Staged) :
    (s.commitSign r).ie = (s.commit r).ie := rfl

@[simp] theorem commitSign_nsrc (s : State) (r : Except CmdError Staged) :
    (s.commitSign r).nsrc = (s.commit r).nsrc := rfl

@[simp] theorem commitSign_busy (s : State) (r : Except CmdError Staged) :
    (s.commitSign r).busy = (s.commit r).busy := rfl

@[simp] theorem commitSign_done (s : State) (r : Except CmdError Staged) :
    (s.commitSign r).done = (s.commit r).done := rfl

@[simp] theorem commitSign_err (s : State) (r : Except CmdError Staged) :
    (s.commitSign r).err = (s.commit r).err := rfl

@[simp] theorem commitSign_onCurveFlag (s : State) (r : Except CmdError Staged) :
    (s.commitSign r).onCurveFlag = (s.commit r).onCurveFlag := rfl

@[simp] theorem commitSign_eqFlag (s : State) (r : Except CmdError Staged) :
    (s.commitSign r).eqFlag = (s.commit r).eqFlag := rfl

@[simp] theorem commitSign_werr (s : State) (r : Except CmdError Staged) :
    (s.commitSign r).werr = (s.commit r).werr := rfl

@[simp] theorem commitSign_cmdLast (s : State) (r : Except CmdError Staged) :
    (s.commitSign r).cmdLast = (s.commit r).cmdLast := rfl

@[simp] theorem commitSign_lcmd (s : State) (r : Except CmdError Staged) :
    (s.commitSign r).lcmd = (s.commit r).lcmd := rfl

@[simp] theorem commitSign_lnsrc (s : State) (r : Except CmdError Staged) :
    (s.commitSign r).lnsrc = (s.commit r).lnsrc := rfl

@[simp] theorem commitSign_draws (s : State) (r : Except CmdError Staged) :
    (s.commitSign r).draws = (s.commit r).draws := rfl

@[simp] theorem commitSign_inReset (s : State) (r : Except CmdError Staged) :
    (s.commitSign r).inReset = (s.commit r).inReset := rfl

@[simp] theorem commitSign_inbox (s : State) (r : Except CmdError Staged) :
    (s.commitSign r).inbox = (s.commit r).inbox := rfl

@[simp] theorem commitSign_resp (s : State) (r : Except CmdError Staged) :
    (s.commitSign r).resp = (s.commit r).resp := rfl

/-! ### Every command answers a next state -/

/-- What SIGN can answer: an illegal word's commit, its own commit, or a wait (rules R60, R95). -/
theorem execSign_cases (rd ra rb : FReg) (s : State) :
    execSign rd ra rb s = .next s.commitIllegal ∨ (∃ r, execSign rd ra rb s = .next (s.commitSign r)) ∨
      execSign rd ra rb s = .next s := by
  unfold execSign signFromNonce signFromPort signWith
  split
  · split
    · split
      · split
        · exact .inr (.inl ⟨_, rfl⟩)
        · exact .inr (.inl ⟨_, rfl⟩)
      · split
        · exact .inr (.inl ⟨_, rfl⟩)
        · exact .inr (.inl ⟨_, rfl⟩)
        · exact .inr (.inr rfl)
    · exact .inr (.inl ⟨_, rfl⟩)
  · exact .inl rfl

/-- What any command can answer. -/
theorem exec_cases (i : Instr) (s : State) :
    (∃ r, exec i s = .next (s.commit r)) ∨
      (∃ rd ra rb, i = .sign rd ra rb ∧ ((∃ r, exec i s = .next (s.commitSign r)) ∨ exec i s = .next s)) := by
  cases i with
  | sign rd ra rb =>
    rcases execSign_cases rd ra rb s with h | h | h
    · exact .inl ⟨_, h⟩
    · exact .inr ⟨rd, ra, rb, rfl, .inl h⟩
    · exact .inr ⟨rd, ra, rb, rfl, .inr h⟩
  | _ => exact .inl ⟨_, rfl⟩

/-- No command faults and none is refused. -/
theorem exec_total (i : Instr) (s : State) : ∃ t, exec i s = .next t := by
  rcases exec_cases i s with ⟨r, h⟩ | ⟨_, _, _, _, ⟨r, h⟩ | h⟩
  · exact ⟨_, h⟩
  · exact ⟨_, h⟩
  · exact ⟨_, h⟩

/-! ### What one step can do -/

/-- The engine's turn: nothing, an illegal word's commit, or the command in LCMD. -/
theorem engineStep_cases (s : State) :
    (engineStep s = .next s ∧ (s.busy = false ∨ s.inReset = true)) ∨
      (s.busy = true ∧ s.inReset = false ∧
        ((∃ e, decode s.lcmd = .error e ∧ engineStep s = .next s.commitIllegal) ∨
          ∃ i, decode s.lcmd = .ok i ∧ engineStep s = exec i s)) := by
  unfold engineStep
  cases hb : s.busy <;> cases hr : s.inReset
  · exact .inl ⟨by simp, .inl rfl⟩
  · exact .inl ⟨by simp, .inl rfl⟩
  · refine .inr ⟨rfl, rfl, ?_⟩
    cases hd : decode s.lcmd with
    | error e => exact .inl ⟨e, rfl, by simp⟩
    | ok i => exact .inr ⟨i, rfl, by simp⟩
  · exact .inl ⟨by simp, .inr rfl⟩

/-- An access the block answers with a next state: not served, a read, or a write. -/
theorem addrAccess_next {s t : State} {addr bytes : Nat} {wr : Option Word}
    (h : addrAccess s addr bytes wr = .next t) :
    ∃ off, windowOffset addr = some off ∧
      ((s.inReset = true ∧ t = { s with resp := none }) ∨
        (s.inReset = false ∧ bytes = 4 ∧ off % 4 = 0 ∧
          ((wr = none ∧ t = { s with resp := some (s.busRead off) }) ∨
            ∃ v, wr = some v ∧ t = { s.busWrite off v with resp := none }))) := by
  unfold addrAccess offsetAccess at h
  cases hw : windowOffset addr with
  | none => rw [hw] at h; cases h
  | some off =>
    rw [hw] at h
    refine ⟨off, rfl, ?_⟩
    cases hr : s.inReset with
    | true =>
      simp only [hr, if_true] at h
      injection h with h
      exact .inl ⟨rfl, h.symm⟩
    | false =>
      simp only [hr, Bool.false_eq_true, if_false] at h
      split at h
      · cases h
      · split at h
        · cases h
        · rename_i h4 hal
          refine .inr ⟨rfl, by simpa using h4, by simpa using hal, ?_⟩
          cases wr with
          | none => injection h with h; exact .inl ⟨rfl, h.symm⟩
          | some v => injection h with h; exact .inr ⟨v, rfl, h.symm⟩

end Sys2Proof.Machine
end

