-- ==== Sys2Proof/Laws/PerInstr.lean ====
section
/-! SUPPORT. Per command, a fact about its word: the encoder's word is matched by the command's own row of the opcode table
(rule R49), for every operand a well-formed command can have. -/

namespace Sys2Proof.Laws.EncodeMatchesRow

-- Checks the theorems one after another: all at once they ask for more threads than the memory limit allows.
set_option Elab.async false

/-- The word of a well-formed command is matched by the command's row. -/
def Statement (i : Instr) : Prop := i.wellFormed = true → encode i &&& i.row.mask = i.row.bits

/-- A word's bits under a mask, from its fields. -/
theorem assemble_and (o : BitVec 8) (d a b : BitVec 4) (m : BitVec 1) (o' : BitVec 8) (d' a' b' : BitVec 4)
    (m' : BitVec 1) (top : BitVec 11) :
    assemble o d a b m &&& (assemble o' d' a' b' m' ||| (top.setWidth 32 <<< 21)) =
      assemble (o &&& o') (d &&& d') (a &&& a') (b &&& b') (m &&& m') := by
  apply BitVec.eq_of_getLsbD_eq
  intro i hi
  interval_cases i <;> simp [assemble]

/-- Kind P leaves bits 3:2 of its field 0 (rule R47). -/
theorem bitsP_and (r : PReg) : bitsP r &&& 12#4 = 0#4 := by
  revert r; decide

/-- Kind E leaves bit 0 of its field 0 (rule R47). -/
theorem bitsF_and_one (r : FReg) (h : FReg.isPair r = true) : bitsF r &&& 1#4 = 0#4 := by
  revert r; decide

theorem nop : Statement .nop := by
  intro h
  have hm : (0xFFFFFFFF#32) = assemble 0xFF#8 15#4 15#4 15#4 1#1 ||| ((0x7FF#11).setWidth 32 <<< 21) := by decide
  simp only [encode, Instr.row, hm, assemble_and]
  clear h hm
  simp [assemble]

theorem fadd (m : Modulus) (rd ra rb : FReg) : Statement (.fadd m rd ra rb) := by
  intro h
  have hm : (0xFFE000FF#32) = assemble 0xFF#8 0#4 0#4 0#4 0#1 ||| ((0x7FF#11).setWidth 32 <<< 21) := by decide
  simp only [encode, Instr.row, hm, assemble_and]
  clear h hm
  simp [assemble]

theorem fsub (m : Modulus) (rd ra rb : FReg) : Statement (.fsub m rd ra rb) := by
  intro h
  have hm : (0xFFE000FF#32) = assemble 0xFF#8 0#4 0#4 0#4 0#1 ||| ((0x7FF#11).setWidth 32 <<< 21) := by decide
  simp only [encode, Instr.row, hm, assemble_and]
  clear h hm
  simp [assemble]

theorem fmul (m : Modulus) (rd ra rb : FReg) : Statement (.fmul m rd ra rb) := by
  intro h
  have hm : (0xFFE000FF#32) = assemble 0xFF#8 0#4 0#4 0#4 0#1 ||| ((0x7FF#11).setWidth 32 <<< 21) := by decide
  simp only [encode, Instr.row, hm, assemble_and]
  clear h hm
  simp [assemble]

theorem finv (m : Modulus) (rd ra : FReg) : Statement (.finv m rd ra) := by
  intro h
  have hm : (0xFFEF00FF#32) = assemble 0xFF#8 0#4 0#4 15#4 0#1 ||| ((0x7FF#11).setWidth 32 <<< 21) := by decide
  simp only [encode, Instr.row, hm, assemble_and]
  clear h hm
  simp [assemble]

theorem pdbl (rd ra : PReg) : Statement (.pdbl rd ra) := by
  intro h
  have hm : (0xFFFFCCFF#32) = assemble 0xFF#8 12#4 12#4 15#4 1#1 ||| ((0x7FF#11).setWidth 32 <<< 21) := by decide
  simp only [encode, Instr.row, hm, assemble_and]
  simp only [bitsP_and]
  simp [assemble]

theorem padd (rd ra rb : PReg) : Statement (.padd rd ra rb) := by
  intro h
  have hm : (0xFFFCCCFF#32) = assemble 0xFF#8 12#4 12#4 12#4 1#1 ||| ((0x7FF#11).setWidth 32 <<< 21) := by decide
  simp only [encode, Instr.row, hm, assemble_and]
  simp only [bitsP_and]
  simp [assemble]

theorem pchk (ra : PReg) : Statement (.pchk ra) := by
  intro h
  have hm : (0xFFFFCFFF#32) = assemble 0xFF#8 15#4 12#4 15#4 1#1 ||| ((0x7FF#11).setWidth 32 <<< 21) := by decide
  simp only [encode, Instr.row, hm, assemble_and]
  simp only [bitsP_and]
  simp [assemble]

theorem peq (ra rb : PReg) : Statement (.peq ra rb) := by
  intro h
  have hm : (0xFFFCCFFF#32) = assemble 0xFF#8 15#4 12#4 12#4 1#1 ||| ((0x7FF#11).setWidth 32 <<< 21) := by decide
  simp only [encode, Instr.row, hm, assemble_and]
  simp only [bitsP_and]
  simp [assemble]

theorem pldg (rd : PReg) : Statement (.pldg rd) := by
  intro h
  have hm : (0xFFFFFCFF#32) = assemble 0xFF#8 12#4 15#4 15#4 1#1 ||| ((0x7FF#11).setWidth 32 <<< 21) := by decide
  simp only [encode, Instr.row, hm, assemble_and]
  simp only [bitsP_and]
  simp [assemble]

theorem smul (rd : PReg) (ra : FReg) (rb : PReg) : Statement (.smul rd ra rb) := by
  intro h
  have hm : (0xFFFC0CFF#32) = assemble 0xFF#8 12#4 0#4 12#4 1#1 ||| ((0x7FF#11).setWidth 32 <<< 21) := by decide
  simp only [encode, Instr.row, hm, assemble_and]
  simp only [bitsP_and]
  simp [assemble]

theorem derive (rd : PReg) (ra : FReg) : Statement (.derive rd ra) := by
  intro h
  have hm : (0xFFFF0CFF#32) = assemble 0xFF#8 12#4 0#4 15#4 1#1 ||| ((0x7FF#11).setWidth 32 <<< 21) := by decide
  simp only [encode, Instr.row, hm, assemble_and]
  simp only [bitsP_and]
  simp [assemble]

theorem sign (rd ra rb : FReg) : Statement (.sign rd ra rb) := by
  intro h
  have hm : (0xFFF001FF#32) = assemble 0xFF#8 1#4 0#4 0#4 1#1 ||| ((0x7FF#11).setWidth 32 <<< 21) := by decide
  simp only [encode, Instr.row, hm, assemble_and]
  rw [bitsF_and_one rd h]
  simp [assemble]

end Sys2Proof.Laws.EncodeMatchesRow
end

