-- ==== Sys2Proof/Laws/Prime.lean ====
section
/-! SUPPORT. The two moduli are prime (rules R2, R3, R65), each by Lucas's criterion over a factorisation of its predecessor.
These are facts about the constants, for the proofs that need an inverse. -/

namespace Sys2Proof.Machine

-- Checks the theorems one after another: all at once they ask for more threads than the memory limit allows.
set_option Elab.async false

/-- Lucas's criterion, its powers computed by `powMod`. -/
theorem prime_of_factors (n a : Nat) (fs : List Nat) (hn : 1 < n) (hprod : fs.prod = n - 1)
    (hpr : ∀ q ∈ fs, q.Prime) (h1 : powMod a (n - 1) n = 1)
    (hq : fs.all (fun q => powMod a ((n - 1) / q) n != 1) = true) : n.Prime := by
  have hpos : 0 < n := by omega
  have hcast : ∀ e, ((a : ZMod n) ^ e = 1) ↔ powMod a e n = 1 := by
    intro e
    rw [powMod_eq _ _ _ hpos]
    have h : ((a : ZMod n) ^ e = 1) ↔ (((a ^ e : Nat) : ZMod n) = ((1 : Nat) : ZMod n)) := by
      push_cast; rfl
    rw [h, ZMod.natCast_eq_natCast_iff, Nat.ModEq, Nat.mod_eq_of_lt hn]
  apply lucas_primality n (a : ZMod n) ((hcast _).2 h1)
  intro q hqp hd
  rw [← hprod] at hd
  obtain ⟨r, hr, hqr⟩ := (hqp.prime.dvd_prod_iff).1 hd
  have hqr' : q = r := (Nat.prime_dvd_prime_iff_eq hqp (hpr r hr)).1 hqr
  subst hqr'
  intro h
  have := List.all_eq_true.1 hq q hr
  rw [(hcast _).1 h] at this
  simp at this

theorem prime_1206781 : Nat.Prime 1206781 :=
  prime_of_factors (1206781) 10 [2, 2, 3, 5, 20113] (by decide +kernel) (by decide +kernel)
    (by
      simp only [List.forall_mem_cons, List.not_mem_nil, false_imp_iff, implies_true, and_true]
      exact ⟨by norm_num, by norm_num, by norm_num, by norm_num, by norm_num⟩)
    (by decide +kernel) (by decide +kernel)

theorem prime_7240687 : Nat.Prime 7240687 :=
  prime_of_factors (7240687) 3 [2, 3, 1206781] (by decide +kernel) (by decide +kernel)
    (by
      simp only [List.forall_mem_cons, List.not_mem_nil, false_imp_iff, implies_true, and_true]
      exact ⟨by norm_num, by norm_num, prime_1206781⟩)
    (by decide +kernel) (by decide +kernel)

theorem prime_107590001 : Nat.Prime 107590001 :=
  prime_of_factors (107590001) 3 [2, 2, 2, 2, 5, 5, 5, 5, 7, 29, 53] (by decide +kernel) (by decide +kernel)
    (by
      simp only [List.forall_mem_cons, List.not_mem_nil, false_imp_iff, implies_true, and_true]
      exact ⟨by norm_num, by norm_num, by norm_num, by norm_num, by norm_num, by norm_num, by norm_num, by norm_num, by norm_num, by norm_num, by norm_num⟩)
    (by decide +kernel) (by decide +kernel)

theorem prime_255515944373_39 : Nat.Prime 255515944373312847190720520512484175977 :=
  prime_of_factors (255515944373312847190720520512484175977) 3 [2, 2, 2, 7, 7, 11, 1627, 2657, 4423, 41201, 96557, 7240687, 107590001] (by decide +kernel) (by decide +kernel)
    (by
      simp only [List.forall_mem_cons, List.not_mem_nil, false_imp_iff, implies_true, and_true]
      exact ⟨by norm_num, by norm_num, by norm_num, by norm_num, by norm_num, by norm_num, by norm_num, by norm_num, by norm_num, by norm_num, by norm_num, prime_7240687, prime_107590001⟩)
    (by decide +kernel) (by decide +kernel)

theorem prime_13331831 : Nat.Prime 13331831 :=
  prime_of_factors (13331831) 13 [2, 5, 971, 1373] (by decide +kernel) (by decide +kernel)
    (by
      simp only [List.forall_mem_cons, List.not_mem_nil, false_imp_iff, implies_true, and_true]
      exact ⟨by norm_num, by norm_num, by norm_num, by norm_num⟩)
    (by decide +kernel) (by decide +kernel)

theorem prime_173378833005_18 : Nat.Prime 173378833005251801 :=
  prime_of_factors (173378833005251801) 6 [2, 2, 2, 5, 5, 2621, 24809, 13331831] (by decide +kernel) (by decide +kernel)
    (by
      simp only [List.forall_mem_cons, List.not_mem_nil, false_imp_iff, implies_true, and_true]
      exact ⟨by norm_num, by norm_num, by norm_num, by norm_num, by norm_num, by norm_num, by norm_num, prime_13331831⟩)
    (by decide +kernel) (by decide +kernel)

theorem prime_221494926740_23 : Nat.Prime 22149492674086928081353 :=
  prime_of_factors (22149492674086928081353) 5 [2, 2, 2, 3, 5323, 173378833005251801] (by decide +kernel) (by decide +kernel)
    (by
      simp only [List.forall_mem_cons, List.not_mem_nil, false_imp_iff, implies_true, and_true]
      exact ⟨by norm_num, by norm_num, by norm_num, by norm_num, by norm_num, prime_173378833005_18⟩)
    (by decide +kernel) (by decide +kernel)

theorem prime_132896956044_24 : Nat.Prime 132896956044521568488119 :=
  prime_of_factors (132896956044521568488119) 6 [2, 3, 22149492674086928081353] (by decide +kernel) (by decide +kernel)
    (by
      simp only [List.forall_mem_cons, List.not_mem_nil, false_imp_iff, implies_true, and_true]
      exact ⟨by norm_num, by norm_num, prime_221494926740_23⟩)
    (by decide +kernel) (by decide +kernel)

theorem prime_205115282021_72 : Nat.Prime 205115282021455665897114700593932402728804164701536103180137503955397371 :=
  prime_of_factors (205115282021455665897114700593932402728804164701536103180137503955397371) 10 [2, 3, 5, 29, 29, 31, 7723, 132896956044521568488119, 255515944373312847190720520512484175977] (by decide +kernel) (by decide +kernel)
    (by
      simp only [List.forall_mem_cons, List.not_mem_nil, false_imp_iff, implies_true, and_true]
      exact ⟨by norm_num, by norm_num, by norm_num, by norm_num, by norm_num, by norm_num, by norm_num, prime_132896956044_24, prime_255515944373_39⟩)
    (by decide +kernel) (by decide +kernel)

/-- Rule R2: the field modulus is prime. -/
theorem p_prime : Config.curve.p.Prime :=
  prime_of_factors (Config.curve.p) 3 [2, 3, 7, 13441, 205115282021455665897114700593932402728804164701536103180137503955397371] (by decide +kernel) (by decide +kernel)
    (by
      simp only [List.forall_mem_cons, List.not_mem_nil, false_imp_iff, implies_true, and_true]
      exact ⟨by norm_num, by norm_num, by norm_num, by norm_num, prime_205115282021_72⟩)
    (by decide +kernel) (by decide +kernel)

theorem prime_44706919 : Nat.Prime 44706919 :=
  prime_of_factors (44706919) 6 [2, 3, 797, 9349] (by decide +kernel) (by decide +kernel)
    (by
      simp only [List.forall_mem_cons, List.not_mem_nil, false_imp_iff, implies_true, and_true]
      exact ⟨by norm_num, by norm_num, by norm_num, by norm_num⟩)
    (by decide +kernel) (by decide +kernel)

theorem prime_174723607534_21 : Nat.Prime 174723607534414371449 :=
  prime_of_factors (174723607534414371449) 3 [2, 2, 2, 17, 59, 4051, 120233, 44706919] (by decide +kernel) (by decide +kernel)
    (by
      simp only [List.forall_mem_cons, List.not_mem_nil, false_imp_iff, implies_true, and_true]
      exact ⟨by norm_num, by norm_num, by norm_num, by norm_num, by norm_num, by norm_num, by norm_num, prime_44706919⟩)
    (by decide +kernel) (by decide +kernel)

theorem prime_4681609 : Nat.Prime 4681609 :=
  prime_of_factors (4681609) 23 [2, 2, 2, 3, 97, 2011] (by decide +kernel) (by decide +kernel)
    (by
      simp only [List.forall_mem_cons, List.not_mem_nil, false_imp_iff, implies_true, and_true]
      exact ⟨by norm_num, by norm_num, by norm_num, by norm_num, by norm_num, by norm_num⟩)
    (by decide +kernel) (by decide +kernel)

theorem prime_107361793816_18 : Nat.Prime 107361793816595537 :=
  prime_of_factors (107361793816595537) 3 [2, 2, 2, 2, 16699, 85831, 4681609] (by decide +kernel) (by decide +kernel)
    (by
      simp only [List.forall_mem_cons, List.not_mem_nil, false_imp_iff, implies_true, and_true]
      exact ⟨by norm_num, by norm_num, by norm_num, by norm_num, by norm_num, by norm_num, prime_4681609⟩)
    (by decide +kernel) (by decide +kernel)

theorem prime_1627771 : Nat.Prime 1627771 :=
  prime_of_factors (1627771) 3 [2, 3, 5, 29, 1871] (by decide +kernel) (by decide +kernel)
    (by
      simp only [List.forall_mem_cons, List.not_mem_nil, false_imp_iff, implies_true, and_true]
      exact ⟨by norm_num, by norm_num, by norm_num, by norm_num, by norm_num⟩)
    (by decide +kernel) (by decide +kernel)

theorem prime_297159362677 : Nat.Prime 297159362677 :=
  prime_of_factors (297159362677) 2 [2, 2, 3, 3, 11, 461, 1627771] (by decide +kernel) (by decide +kernel)
    (by
      simp only [List.forall_mem_cons, List.not_mem_nil, false_imp_iff, implies_true, and_true]
      exact ⟨by norm_num, by norm_num, by norm_num, by norm_num, by norm_num, by norm_num, prime_1627771⟩)
    (by decide +kernel) (by decide +kernel)

theorem prime_545358713 : Nat.Prime 545358713 :=
  prime_of_factors (545358713) 5 [2, 2, 2, 41, 59, 28181] (by decide +kernel) (by decide +kernel)
    (by
      simp only [List.forall_mem_cons, List.not_mem_nil, false_imp_iff, implies_true, and_true]
      exact ⟨by norm_num, by norm_num, by norm_num, by norm_num, by norm_num, by norm_num⟩)
    (by decide +kernel) (by decide +kernel)

theorem prime_290476118734_29 : Nat.Prime 29047611873442575647497758179 :=
  prime_of_factors (29047611873442575647497758179) 2 [2, 293, 305873, 545358713, 297159362677] (by decide +kernel) (by decide +kernel)
    (by
      simp only [List.forall_mem_cons, List.not_mem_nil, false_imp_iff, implies_true, and_true]
      exact ⟨by norm_num, by norm_num, by norm_num, prime_545358713, prime_297159362677⟩)
    (by decide +kernel) (by decide +kernel)

theorem prime_341948486974_33 : Nat.Prime 341948486974166000522343609283189 :=
  prime_of_factors (341948486974166000522343609283189) 2 [2, 2, 3, 3, 3, 109, 29047611873442575647497758179] (by decide +kernel) (by decide +kernel)
    (by
      simp only [List.forall_mem_cons, List.not_mem_nil, false_imp_iff, implies_true, and_true]
      exact ⟨by norm_num, by norm_num, by norm_num, by norm_num, by norm_num, by norm_num, prime_290476118734_29⟩)
    (by decide +kernel) (by decide +kernel)

/-- Rules R2, R65: the group order is prime. -/
theorem n_prime : Config.curve.n.Prime :=
  prime_of_factors (Config.curve.n) 7 [2, 2, 2, 2, 2, 2, 3, 149, 631, 107361793816595537, 174723607534414371449, 341948486974166000522343609283189] (by decide +kernel) (by decide +kernel)
    (by
      simp only [List.forall_mem_cons, List.not_mem_nil, false_imp_iff, implies_true, and_true]
      exact ⟨by norm_num, by norm_num, by norm_num, by norm_num, by norm_num, by norm_num, by norm_num, by norm_num, by norm_num, prime_107361793816_18, prime_174723607534_21, prime_341948486974_33⟩)
    (by decide +kernel) (by decide +kernel)

end Sys2Proof.Machine
end

