-- ==== Sys2Proof/Laws/Window.lean ====
section
/-! SUPPORT. The words of a 256-bit register (rule R32) and the register map (rule R30). -/

namespace Sys2Proof.Machine

-- Checks the theorems one after another: all at once they ask for more threads than the memory limit allows.
set_option Elab.async false

/-- Bit `i` of word `k`. -/
theorem getLsbD_wideWord (r : Wide) (k : Fin 8) (i : Nat) (hi : i < 32) :
    (wideWord r k).getLsbD i = r.getLsbD (224 - 32 * k.val + i) := by
  simp [wideWord, hi]

/-- Bit `i` of a register with word `k` replaced. -/
theorem getLsbD_wideSetWord (r : Wide) (k : Fin 8) (v : Word) (i : Nat) (hi : i < 256) :
    (wideSetWord r k v).getLsbD i =
      if 224 - 32 * k.val ≤ i ∧ i < 256 - 32 * k.val then v.getLsbD (i - (224 - 32 * k.val)) else r.getLsbD i := by
  have hk := k.isLt
  have hm : (0xFFFFFFFF#256).getLsbD (i - (224 - 32 * k.val)) = decide (i - (224 - 32 * k.val) < 32) := by
    have h : (0xFFFFFFFF#256) = (BitVec.allOnes 32).setWidth 256 := by decide
    rw [h, BitVec.getLsbD_setWidth, BitVec.getLsbD_allOnes]
    have : i - (224 - 32 * k.val) < 256 := by omega
    simp [this]
  simp only [wideSetWord, BitVec.getLsbD_or, BitVec.getLsbD_and, BitVec.getLsbD_not, BitVec.getLsbD_shiftLeft,
    BitVec.getLsbD_setWidth, hm, hi, decide_true, Bool.true_and]
  by_cases h1 : i < 224 - 32 * k.val
  · have : ¬(224 - 32 * k.val ≤ i ∧ i < 256 - 32 * k.val) := by omega
    rw [if_neg this]
    simp [h1]
  · by_cases h2 : i < 256 - 32 * k.val
    · have h3 : i - (224 - 32 * k.val) < 32 := by omega
      have h4 : 224 - 32 * k.val ≤ i := by omega
      have h5 : i - (224 - 32 * k.val) < 256 := by omega
      simp [h1, h2, h3, h4, h5]
    · have h3 : ¬(i - (224 - 32 * k.val) < 32) := by omega
      have h4 : v.getLsbD (i - (224 - 32 * k.val)) = false := BitVec.getLsbD_of_ge _ _ (by omega)
      simp [h1, h2, h3, h4]

/-- Rule R32: the word written reads back. -/
@[simp] theorem wideWord_wideSetWord_same (r : Wide) (k : Fin 8) (v : Word) :
    wideWord (wideSetWord r k v) k = v := by
  have hk := k.isLt
  apply BitVec.eq_of_getLsbD_eq
  intro i hi
  rw [getLsbD_wideWord _ _ _ hi, getLsbD_wideSetWord _ _ _ _ (by omega), if_pos (by omega)]
  congr 1
  omega

/-- Rule R32: the other words are unchanged. -/
theorem wideWord_wideSetWord_other (r : Wide) {k k' : Fin 8} (h : k' ≠ k) (v : Word) :
    wideWord (wideSetWord r k v) k' = wideWord r k' := by
  have hk := k.isLt
  have hk' := k'.isLt
  have hne : k'.val ≠ k.val := fun e => h (Fin.ext e)
  apply BitVec.eq_of_getLsbD_eq
  intro i hi
  rw [getLsbD_wideWord _ _ _ hi, getLsbD_wideWord _ _ _ hi, getLsbD_wideSetWord _ _ _ _ (by omega),
    if_neg (by omega)]

/-- Rule R32: a register is its eight words. -/
theorem wide_ext {r r' : Wide} (h : ∀ k, wideWord r k = wideWord r' k) : r = r' := by
  apply BitVec.eq_of_getLsbD_eq
  intro i hi
  have hw := congrArg (fun w : Word => w.getLsbD (i % 32)) (h ⟨7 - i / 32, by omega⟩)
  simp only [getLsbD_wideWord _ _ _ (Nat.mod_lt i (by omega : 0 < 32))] at hw
  have e : 224 - 32 * (7 - i / 32) + i % 32 = i := by omega
  rwa [e] at hw

/-- An address of the window gives its offset (rule R29). -/
@[simp] theorem windowOffset_base (off : Nat) (h : off < 4096) :
    windowOffset (Config.base + off) = some off := by
  unfold windowOffset
  rw [if_pos ⟨by omega, by simp only [Config.windowBytes]; omega⟩]
  congr 1
  omega

/-- A read sees only the registers the bus can read (rules R17 to R24). -/
theorem busRead_congr {s t : State} (off : Nat) (hf : t.f = s.f) (hx : t.x = s.x) (hy : t.y = s.y)
    (hinf : t.inf = s.inf) (hctrl : t.ctrlWord = s.ctrlWord) (hstatus : t.statusWord = s.statusWord)
    (hcmd : t.cmdLast = s.cmdLast) : t.busRead off = s.busRead off := by
  unfold State.busRead State.readReg State.pinfWord
  rw [hf, hx, hy, hinf, hctrl, hstatus, hcmd]

/-! ### The register map -/

theorem regAt_f (i : FReg) (k : Fin 8) : regAt (0x100 + 0x20 * i.val + 4 * k.val) = .f i k := by
  revert i k; decide

theorem regAt_x (j : PReg) (k : Fin 8) : regAt (0x300 + 0x40 * j.val + 4 * k.val) = .x j k := by
  revert j k; decide

theorem regAt_y (j : PReg) (k : Fin 8) : regAt (0x320 + 0x40 * j.val + 4 * k.val) = .y j k := by
  revert j k; decide

theorem regAt_nonce (k : Fin 8) : regAt (0x400 + 4 * k.val) = .nonce k := by
  revert k; decide

/-! ### Data writes while idle (rules R32, R56) -/

theorem busWrite_f {s : State} (hb : s.busy = false) (i : FReg) (k : Fin 8) (v : Word) :
    s.busWrite (0x100 + 0x20 * i.val + 4 * k.val) v = s.hostF i k v := by
  simp only [State.busWrite, regAt_f, State.writeReg, State.unlessBusy, hb, Bool.false_eq_true, if_false]

theorem busWrite_x {s : State} (hb : s.busy = false) (j : PReg) (k : Fin 8) (v : Word) :
    s.busWrite (0x300 + 0x40 * j.val + 4 * k.val) v = s.hostX j k v := by
  simp only [State.busWrite, regAt_x, State.writeReg, State.unlessBusy, hb, Bool.false_eq_true, if_false]

theorem busWrite_y {s : State} (hb : s.busy = false) (j : PReg) (k : Fin 8) (v : Word) :
    s.busWrite (0x320 + 0x40 * j.val + 4 * k.val) v = s.hostY j k v := by
  simp only [State.busWrite, regAt_y, State.writeReg, State.unlessBusy, hb, Bool.false_eq_true, if_false]

theorem busWrite_nonce {s : State} (hb : s.busy = false) (k : Fin 8) (v : Word) :
    s.busWrite (0x400 + 4 * k.val) v = s.hostNonce k v := by
  simp only [State.busWrite, regAt_nonce, State.writeReg, State.unlessBusy, hb, Bool.false_eq_true, if_false]

/-- An address outside the window has no offset (rule R29). -/
theorem windowOffset_outside {addr : Nat} (h : addr < Config.base ∨ Config.base + 4096 ≤ addr) :
    windowOffset addr = none := by
  unfold windowOffset Config.windowBytes
  rw [if_neg (by omega)]

/-- A write while busy: ignored, dropped with WERR, or one to STATUS or CTRL (rule R56). -/
theorem writeReg_busy {s : State} (h : s.busy = true) (r : Reg) (v : Word) :
    s.writeReg r v = s ∨ s.writeReg r v = { s with werr := true } ∨ s.writeReg r v = s.hostStatus v ∨
      s.writeReg r v = { s with ie := v.getLsbD 0, nsrc := v.getLsbD 1 } ∨ s.writeReg r v = s.softReset := by
  cases r with
  | ctrl =>
    have e : s.writeReg .ctrl v = s.hostCtrl v := rfl
    rw [e, State.hostCtrl]
    cases v.getLsbD 31 with
    | true => exact .inr (.inr (.inr (.inr rfl)))
    | false => exact .inr (.inr (.inr (.inl rfl)))
  | _ => simp [State.writeReg, State.unlessBusy, h]

end Sys2Proof.Machine
end

