-- ==== Sys2Proof/Tests/Slice0.lean ====
section
/-! SUPPORT. The model's own tests: each command's word and effect against the vectors of spec/95_test_vectors.md, the bus, the
engine and the resets by single steps, and for every statement with hypotheses a witness that meets them together. -/

namespace Sys2Proof.Tests

-- Checks the theorems one after another: all at once they ask for more threads than the memory limit allows.
set_option Elab.async false

open Sys2Proof Sys2Proof.Machine

/-! ### Helpers -/

/-- The next state, or a state no test expects. -/
def after (o : Host.Outcome State Fault Refusal) : State :=
  match o with
  | .next s => s
  | .fault _ => { State.reset with inReset := true }
  | .refused _ => { State.reset with inReset := true }

/-- A state with a field register set. -/
def withF (i : FReg) (v : Nat) (s : State) : State := s.writeF i (BitVec.ofNat 256 v)

/-- A state with a point register's raw content set. -/
def withRaw (j : PReg) (x y : Nat) (inf : Bool) (s : State) : State :=
  { s with
    x := s.x.set j.val (BitVec.ofNat 256 x)
    y := s.y.set j.val (BitVec.ofNat 256 y)
    inf := s.inf.set j.val inf }

/-- A state with a point register holding an affine point. -/
def withP (j : PReg) (x y : Nat) (s : State) : State := withRaw j x y false s

/-- One engine turn on a command word accepted in `s`. -/
def run (w : Nat) (s : State) : State := after (step (s.withFetchWord 32 w))

/-- A point register as a test compares it. -/
def pointOf (s : State) (j : PReg) : Bool × Nat × Nat := (s.inf[j.val], s.x[j.val].toNat, s.y[j.val].toNat)

/-- Reset with the operands of SIGN F2, F0, F1 and the nonce source and nonce set. -/
def signState (nsrc : Bool) (d k z : Nat) : State :=
  withF 0 d (withF 1 z { State.reset with nsrc := nsrc, nonce := BitVec.ofNat 256 k })

/-- `signState` with SIGN F2, F0, F1 accepted and candidates drawn. -/
def signing (nsrc : Bool) (d k z : Nat) (draws : List Nat) : State :=
  { (signState nsrc d k z).withFetchWord 32 0x00010218 with draws := draws.map (BitVec.ofNat 256) }

/-! ### Well-formedness and decoding (30_encoding.md) -/

/-- Rule R47, kind E: an odd first register is no pair. -/
theorem test_odd_pair_is_ill_formed : Instr.wellFormed (.sign 1 0 0) = false := by decide

theorem test_even_pair_is_well_formed : Instr.wellFormed (.sign 14 0 0) = true := by decide

/-- Bits 00000000000000000000000000000000 (rules R46, R49). -/
theorem test_decode_nop : decode 0b00000000000000000000000000000000#32 = .ok (.nop) := by decide

/-- Bits 00000000000000010000001000000001 (rules R46, R49). -/
theorem test_decode_fadd : decode 0b00000000000000010000001000000001#32 = .ok (.fadd .p 2 0 1) := by decide

/-- Bits 00000000000100010000001000000001 (rules R46, R49). -/
theorem test_decode_fadd_n : decode 0b00000000000100010000001000000001#32 = .ok (.fadd .n 2 0 1) := by decide

/-- Bits 00000000000000010000001000000010 (rules R46, R49). -/
theorem test_decode_fsub : decode 0b00000000000000010000001000000010#32 = .ok (.fsub .p 2 0 1) := by decide

/-- Bits 00000000000100010000001000000011 (rules R46, R49). -/
theorem test_decode_fmul : decode 0b00000000000100010000001000000011#32 = .ok (.fmul .n 2 0 1) := by decide

/-- Bits 00000000000100000000001100000100 (rules R46, R49). -/
theorem test_decode_finv : decode 0b00000000000100000000001100000100#32 = .ok (.finv .n 3 0) := by decide

/-- Bits 00000000000000000000000100001000 (rules R46, R49). -/
theorem test_decode_pdbl : decode 0b00000000000000000000000100001000#32 = .ok (.pdbl 1 0) := by decide

/-- Bits 00000000000000000001000100001001 (rules R46, R49). -/
theorem test_decode_padd : decode 0b00000000000000000001000100001001#32 = .ok (.padd 1 1 0) := by decide

/-- Bits 00000000000000000001000000001010 (rules R46, R49). -/
theorem test_decode_pchk : decode 0b00000000000000000001000000001010#32 = .ok (.pchk 1) := by decide

/-- Bits 00000000000000100001000000001011 (rules R46, R49). -/
theorem test_decode_peq : decode 0b00000000000000100001000000001011#32 = .ok (.peq 1 2) := by decide

/-- Bits 00000000000000000000001100001100 (rules R46, R49). -/
theorem test_decode_pldg : decode 0b00000000000000000000001100001100#32 = .ok (.pldg 3) := by decide

/-- Bits 00000000000000000001001100010000 (rules R46, R49). -/
theorem test_decode_smul : decode 0b00000000000000000001001100010000#32 = .ok (.smul 3 1 0) := by decide

/-- Bits 00000000000000000000000100010001 (rules R46, R49). -/
theorem test_decode_derive : decode 0b00000000000000000000000100010001#32 = .ok (.derive 1 0) := by decide

/-- Bits 00000000000000010000001000011000 (rules R46, R49). -/
theorem test_decode_sign : decode 0b00000000000000010000001000011000#32 = .ok (.sign 2 0 1) := by decide

/-- Rule R50 (a) to (e), by the words of vectors VE2 to VE8, and rule R51's reserved ranges at their ends. -/
theorem test_illegal_words :
    decode 0x00000005#32 = .error .reservedOpcode ∧ decode 0x00000007#32 = .error .reservedOpcode ∧
      decode 0x0000000D#32 = .error .reservedOpcode ∧ decode 0x00000017#32 = .error .reservedOpcode ∧
      decode 0x00000019#32 = .error .reservedOpcode ∧ decode 0x000000FF#32 = .error .reservedOpcode ∧
      decode 0x00200001#32 = .error .reservedBits ∧ decode 0x80000000#32 = .error .reservedBits ∧
      decode 0x00000100#32 = .error .unusedField ∧ decode 0x00010004#32 = .error .unusedField ∧
      decode 0x00100008#32 = .error .unusedField ∧ decode 0x00000408#32 = .error .pointIndex ∧
      decode 0x00000118#32 = .error .oddPair := by decide

/-- Rule R52: the examples `FADD.P`, `FINV.N` and `SIGN` of the syntax table. -/
theorem test_assembler_text :
    (Instr.fadd .p 3 1 2).asm = "FADD.P F3, F1, F2" ∧ (Instr.finv .n 15 0).asm = "FINV.N F15, F0" ∧
      (Instr.sign 2 0 1).asm = "SIGN F2, F0, F1" := by decide

/-- The host's decoder on a table row's word. -/
theorem test_decodeTableWord : decodeTableWord 32 0x00000018 = some (.sign 0 0 0) := by decide

/-! ### Commands (vectors VE, VF, VG, VK, VS) -/

/-- VE1. -/
theorem test_nop : (run 0x00000000 State.reset).statusWord = 0x00000002#32 := by decide

/-- VF3. -/
theorem test_fadd_reduces_first :
    (run 0x00010201 (withF 0 0xFFFFFFFFFFFFFFFFFFFFFFFFFFFFFFFFFFFFFFFFFFFFFFFFFFFFFFFFFFFFFFFF (withF 1 0xFFFFFFFFFFFFFFFFFFFFFFFFFFFFFFFFFFFFFFFFFFFFFFFFFFFFFFFFFFFFFFFF State.reset))).f[2].toNat =
      0x2000007A0 := by decide +kernel

/-- VF5. -/
theorem test_fadd_modulo_n :
    (run 0x00110201 (withF 0 0xFFFFFFFFFFFFFFFFFFFFFFFFFFFFFFFFFFFFFFFFFFFFFFFFFFFFFFFFFFFFFFFF (withF 1 0xFFFFFFFFFFFFFFFFFFFFFFFFFFFFFFFFFFFFFFFFFFFFFFFFFFFFFFFFFFFFFFFF State.reset))).f[2].toNat =
      0x28AA24632A16EBF88805B42E65F937D7C := by decide +kernel

/-- VF8. -/
theorem test_fsub_unreduced_subtrahend :
    (run 0x00010202 (withF 0 0x5 (withF 1 0xFFFFFFFFFFFFFFFFFFFFFFFFFFFFFFFFFFFFFFFFFFFFFFFFFFFFFFFEFFFFFC36 State.reset))).f[2].toNat =
      0xFFFFFFFFFFFFFFFFFFFFFFFFFFFFFFFFFFFFFFFFFFFFFFFFFFFFFFFEFFFFFC2D := by decide +kernel

/-- VF11. -/
theorem test_fsub_modulo_n :
    (run 0x00110202 (withF 0 0x0 (withF 1 0x1 State.reset))).f[2].toNat =
      0xFFFFFFFFFFFFFFFFFFFFFFFFFFFFFFFEBAAEDCE6AF48A03BBFD25E8CD0364140 := by decide +kernel

/-- VF13. -/
theorem test_fmul :
    (run 0x00010203 (withF 0 0xFFFFFFFFFFFFFFFFFFFFFFFFFFFFFFFFFFFFFFFFFFFFFFFFFFFFFFFFFFFFFFFF (withF 1 0xFFFFFFFFFFFFFFFFFFFFFFFFFFFFFFFFFFFFFFFFFFFFFFFFFFFFFFFFFFFFFFFF State.reset))).f[2].toNat =
      0x1000007A0000E8900 := by decide +kernel

/-- VF14. -/
theorem test_fmul_modulo_n :
    (run 0x00110203 (withF 0 0xFFFFFFFFFFFFFFFFFFFFFFFFFFFFFFFFFFFFFFFFFFFFFFFFFFFFFFFFFFFFFFFF (withF 1 0xFFFFFFFFFFFFFFFFFFFFFFFFFFFFFFFFFFFFFFFFFFFFFFFFFFFFFFFFFFFFFFFF State.reset))).f[2].toNat =
      0x9D671CD581C69BC5E697F5E45BCD07C3E972508F6D0E38F00911AF2E084453C3 := by decide +kernel

/-- VF24. -/
theorem test_finv_modulo_n :
    (run 0x00100204 (withF 0 0x79BE667EF9DCBBAC55A06295CE870B07029BFCDB2DCE28D959F2815B16F81798 (withF 1 0x0 State.reset))).f[2].toNat =
      0x1DD887B3EAF153260A95E8B9FD31F60AC115D26CCBE1F572C0B8D7A6DEC520FE := by decide +kernel

/-- VF26: p reduces to 0, F2 is unchanged. -/
theorem test_finv_of_p :
    (run 0x00000204 (withF 0 0xFFFFFFFFFFFFFFFFFFFFFFFFFFFFFFFFFFFFFFFFFFFFFFFFFFFFFFFEFFFFFC2F (withF 2 99 State.reset))).f[2].toNat = 99 ∧
      (run 0x00000204 (withF 0 0xFFFFFFFFFFFFFFFFFFFFFFFFFFFFFFFFFFFFFFFFFFFFFFFFFFFFFFFEFFFFFC2F State.reset)).statusWord = 0x00000022#32 := by decide +kernel

/-- VG2. -/
theorem test_pdbl_of_G :
    pointOf (run 0x00000108 (withP 0 0x79BE667EF9DCBBAC55A06295CE870B07029BFCDB2DCE28D959F2815B16F81798
      0x483ADA7726A3C4655DA4FBFC0E1108A8FD17B448A68554199C47D08FFB10D4B8 State.reset)) 1 =
      (false, 0xC6047F9441ED7D6D3045406E95C07CD85C778E4B8CEF3CA7ABAC09B95C709EE5,
        0x1AE168FEA63DC339A3C58419466CEAEEF7F632653266D0E1236431A950CFE52A) := by decide +kernel

/-- VG6. -/
theorem test_pdbl_off_curve :
    pointOf (run 0x00000108 (withP 0 1 1 State.reset)) 1 =
      (false, 0x3FFFFFFFFFFFFFFFFFFFFFFFFFFFFFFFFFFFFFFFFFFFFFFFFFFFFFFFBFFFFF0C,
        0x1FFFFFFFFFFFFFFFFFFFFFFFFFFFFFFFFFFFFFFFFFFFFFFFFFFFFFFFDFFFFF86) := by decide +kernel

/-- VG13. -/
theorem test_padd_chord_off_curve :
    pointOf (run 0x00010209 (withP 0 1 1 (withP 1 2 2 State.reset))) 2 =
      (false, 0xFFFFFFFFFFFFFFFFFFFFFFFFFFFFFFFFFFFFFFFFFFFFFFFFFFFFFFFEFFFFFC2D,
        0x2) := by decide +kernel

/-- VG12. -/
theorem test_padd_equal_x :
    pointOf (run 0x00010209 (withP 0 1 2 (withP 1 1 3 State.reset))) 2 =
      (true, 0, 0) := by decide +kernel

/-- VG15, VG18: ONCURVE. -/
theorem test_pchk :
    (run 0x0000000A (withP 0 0x79BE667EF9DCBBAC55A06295CE870B07029BFCDB2DCE28D959F2815B16F81798
      0x483ADA7726A3C4655DA4FBFC0E1108A8FD17B448A68554199C47D08FFB10D4B8 State.reset)).statusWord = 0x00000102#32 ∧
      (run 0x0000000A (withP 0 1 1 State.reset)).statusWord = 0x00000002#32 := by decide +kernel

/-- VG19: an INF register's coordinates are ignored. -/
theorem test_pchk_inf :
    (run 0x0000000A (withRaw 0 1 1 true State.reset)).statusWord = 0x00000102#32 := by decide +kernel

/-- VG23: coordinates are compared after reduction. -/
theorem test_peq_reduces :
    (run 0x0001000B (withP 0 1 1 (withP 1 0xFFFFFFFFFFFFFFFFFFFFFFFFFFFFFFFFFFFFFFFFFFFFFFFFFFFFFFFEFFFFFC30 1 State.reset))).statusWord =
      0x00000202#32 := by decide +kernel

/-- VG22: Inf is not an affine point. -/
theorem test_peq_inf_affine :
    (run 0x0001000B (withP 0 5 6 (withRaw 1 5 6 true State.reset))).statusWord = 0x00000002#32 := by
  decide +kernel

/-- VG1. -/
theorem test_pldg :
    pointOf (run 0x0000000C (State.reset)) 0 =
      (false, 0x79BE667EF9DCBBAC55A06295CE870B07029BFCDB2DCE28D959F2815B16F81798,
        0x483ADA7726A3C4655DA4FBFC0E1108A8FD17B448A68554199C47D08FFB10D4B8) := by decide +kernel

/-- VK5. -/
theorem test_smul_by_seven :
    pointOf (run 0x00000110 (withF 0 7 (withP 0 0x79BE667EF9DCBBAC55A06295CE870B07029BFCDB2DCE28D959F2815B16F81798
      0x483ADA7726A3C4655DA4FBFC0E1108A8FD17B448A68554199C47D08FFB10D4B8 State.reset))) 1 =
      (false, 0x5CBDF0646E5DB4EAA398F365F2EA7A0E3D419B7E0330E39CE92BDDEDCAC4F9BC,
        0x6AEBCA40BA255960A3178D6D861A54DBA813D0B813FDE7B5A5082628087264DA) := by decide +kernel

/-- VK13: the doubling gives Inf, and adding (5, 0) gives it back. -/
theorem test_smul_by_three_through_inf :
    pointOf (run 0x00000110 (withF 0 3 (withP 0 5 0 State.reset))) 1 =
      (false, 0x5,
        0x0) := by decide +kernel

/-- L3 program 2, 3G. -/
theorem test_derive_three :
    pointOf (run 0x00000111 (withF 0 3 State.reset)) 1 =
      (false, 0xF9308A019258C31049344F85F89D5229B531C845836F99B08601F113BCE036F9,
        0x388F7B0F632DE8140FE337E62A37F3566500A99934C2231B6CB9FD7584B8E672) := by decide +kernel

/-- VK18: k = n is rejected. -/
theorem test_derive_n_is_rejected :
    (run 0x00000111 (withF 0 0xFFFFFFFFFFFFFFFFFFFFFFFFFFFFFFFEBAAEDCE6AF48A03BBFD25E8CD0364141 State.reset)).statusWord =
      0x00000012#32 := by decide +kernel

/-- VS8. -/
theorem test_sign_with_nonce :
    let s := run 0x00010218 (signState true 1 2 0x79BE667EF9DCBBAC55A06295CE870B07029BFCDB2DCE28D959F2815B16F81798)
    s.f[2].toNat = 0xC6047F9441ED7D6D3045406E95C07CD85C778E4B8CEF3CA7ABAC09B95C709EE5 ∧
      s.f[3].toNat = 0x12A221045AD3AEC29FA00154E66D2CD61B138EF3CB5998CE5664B495D9DF714D ∧ s.nonce = 0#256 := by
  decide +kernel

/-- VS15: the candidates 0 and n are rejected, 7 is taken. -/
theorem test_sign_from_port :
    let s := after (step (signing false
      0x1E99423A4ED27608A15A2616A2B0E9E52CED330AC530EDCC32C8FFC6A526AEDD 0
      0xBA7816BF8F01CFEA414140DE5DAE2223B00361A396177A9CB410FF61F20015AD
      [0, 0xFFFFFFFFFFFFFFFFFFFFFFFFFFFFFFFEBAAEDCE6AF48A03BBFD25E8CD0364141, 7]))
    s.f[2].toNat = 0x5CBDF0646E5DB4EAA398F365F2EA7A0E3D419B7E0330E39CE92BDDEDCAC4F9BC ∧
      s.f[3].toNat = 0x195E7574328BF6222065C588AF3474A058C8FD77ABFFBA7E5E1A2E5E46150D5E := by
  decide +kernel

/-- VE7: an illegal SIGN does not clear NONCE. -/
theorem test_illegal_sign_keeps_nonce :
    (run 0x00000118 { State.reset with nonce := 5#256 }).nonce = 5#256 ∧
      (run 0x00000118 State.reset).statusWord = 0x00000042#32 := by decide

/-- Rule R26: the latches and the candidates drawn do not survive the commit, CMDLAST does. -/
theorem test_latches_do_not_survive :
    let s := run 0x00010218 (signState true 0 5 0)
    s.lcmd = 0#32 ∧ s.lnsrc = false ∧ s.draws = [] ∧ s.cmdLast = 0x00010218#32 ∧
      (signing true 0 5 0 []).lcmd = 0x00010218#32 ∧ (signing true 0 5 0 []).lnsrc = true := by decide

/-! ### The bus, the interrupt and the resets (vectors VB, VX, VR) -/

/-- VB1, VB2: the word order. -/
theorem test_word_order :
    (State.reset.busWrite 0x11C 1#32).f[0] = 1#256 ∧
      (State.reset.busWrite 0x100 0x12345678#32).f[0] = 0x12345678#256 <<< 224 := by decide

/-- VB6, VB7: NONCE reads 0, a constant ignores writes. -/
theorem test_nonce_and_constants :
    (State.reset.busWrite 0x41C 7#32).busRead 0x41C = 0#32 ∧ (State.reset.busWrite 0x41C 7#32).nonce = 7#256 ∧
      State.reset.busWrite 0x500 1#32 = State.reset := by decide

/-- VR1, VR2, VR6 to VR10: the last word of each read-only register, and b. -/
theorem test_read_only_registers :
    State.reset.busRead 0x000 = 0x45434331#32 ∧ State.reset.busRead 0x004 = 0x00010000#32 ∧
      State.reset.busRead 0x51C = 0xFFFFFC2F#32 ∧ State.reset.busRead 0x518 = 0xFFFFFFFE#32 ∧
      State.reset.busRead 0x53C = 0#32 ∧ State.reset.busRead 0x55C = 7#32 ∧
      State.reset.busRead 0x57C = 0xD0364141#32 ∧ State.reset.busRead 0x580 = 0x79BE667E#32 ∧
      State.reset.busRead 0x5BC = 0xFB10D4B8#32 := by decide

/-- VX7: a busy write to F5 is dropped and sets WERR; a 1 written to bit 16 clears it. -/
theorem test_busy_write :
    let s := (State.reset.withFetchWord 32 0).busWrite 0x1A0 1#32
    s.statusWord = 0x00010001#32 ∧ (s.busWrite 0x00C 0x00010000#32).statusWord = 0x00000001#32 := by decide

/-- VX1 to VX3: irq follows DONE and IE. -/
theorem test_irq :
    let s := run 0x00000000 (State.reset.busWrite 0x008 1#32)
    s.irq = true ∧ (s.busWrite 0x00C 2#32).irq = false ∧ (s.busWrite 0x008 0#32).irq = false ∧
      ((s.busWrite 0x008 0#32).busWrite 0x008 1#32).irq = true := by decide

/-- VR11: a soft reset aborts an executing command. -/
theorem test_soft_reset :
    (State.reset.withFetchWord 32 0x00000110).busWrite 0x008 0x80000000#32 = State.reset := by decide

/-- VB4, VB5: a misaligned read and an 8-bit write are faults of the host program. -/
theorem test_bad_accesses :
    offsetAccess State.reset 0x102 4 none = .fault .misaligned ∧
      offsetAccess State.reset 0x100 1 (some 1#32) = .fault .badWidth := ⟨rfl, rfl⟩

/-- Rule R29: the address just above the window is not the block's, whatever the base. -/
theorem test_outside_window (s : State) : addrAccess s (Config.base + 4096) 4 none = .fault .outsideWindow := by
  simp [addrAccess, windowOffset_outside (.inr (Nat.le_refl _))]

/-- Rule R60, D43: SIGN waits for the port, unchanged, and draws a candidate offered. -/
theorem test_sign_waits :
    let s := signing false 1 0 0 [0]
    after (step s) = s ∧ (after (step { s with inbox := [.candidate 9#256] })).draws = [0#256, 9#256] := by
  decide +kernel

/-- S9: the first and last bytes of the public key of d = 1. -/
theorem test_public_key :
    ((run 0x00000011 (withF 0 1 State.reset)).publicKey 0).map
      (fun bs => (bs.length, bs.take 3, bs.drop 63)) =
      some (65, [0x04#8, 0x79#8, 0xBE#8], [0xD4#8, 0xB8#8]) := by decide +kernel

/-! ### Witnesses: for every statement with hypotheses, inputs that meet them together, and each clause's at its ends -/

/-- The group order, as a test writes it. -/
def ordN : Nat := 0xFFFFFFFFFFFFFFFFFFFFFFFFFFFFFFFEBAAEDCE6AF48A03BBFD25E8CD0364141

/-- A field modulus, as a test writes it. -/
def modP : Nat := 0xFFFFFFFFFFFFFFFFFFFFFFFFFFFFFFFFFFFFFFFFFFFFFFFFFFFFFFFEFFFFFC2F

/-- A NOP executing. -/
def nopState : State := State.reset.accept 0#32

theorem witness_DecodeOfEncode : Instr.wellFormed (.sign 14 15 15) = true ∧ Instr.wellFormed (.padd 3 3 3) = true := by
  decide

theorem witness_EncodeOfDecode : decode 0x00110201#32 = .ok (.fadd .n 2 0 1) := by decide

theorem witness_DecodeMatchesOpcodeTable :
    decode 0x00010F18#32 = .error .oddPair ∧ decode 0x00010E18#32 = .ok (.sign 14 0 1) ∧
      Instr.row (.sign 14 0 1) ∈ opcodeTable ∧
      0x00010E18#32 &&& (Instr.row (.sign 14 0 1)).mask = (Instr.row (.sign 14 0 1)).bits := by decide

/-- Both clauses: no event to come, and an engine turn at the head. -/
theorem witness_StepRunsTheDecodedCommand :
    nopState.busy = true ∧ nopState.inReset = false ∧ decode nopState.lcmd = .ok .nop ∧ nopState.inbox = [] ∧
      ({ nopState with inbox := [.engine, readEvent 0] } : State).inbox = .engine :: [readEvent 0] :=
  ⟨rfl, rfl, rfl, rfl, rfl⟩

theorem witness_IllegalWordCommits :
    let s := State.reset.accept 0xFFFFFFFF#32
    s.busy = true ∧ s.inReset = false ∧ decode s.lcmd = .error .reservedBits := ⟨rfl, rfl, by decide⟩

theorem witness_CmdWriteAccepts : State.reset.busy = false := rfl

/-- Every clause at the ends of its range, on one busy state, with what each gives. -/
theorem witness_BusyWritesAreDropped :
    nopState.busy = true ∧
      (∀ off ∈ [0x010, 0x014, 0x100, 0x3FC, 0x400, 0x41C],
        off % 4 = 0 ∧ off < 4096 ∧ nopState.busWrite off 3#32 = { nopState with werr := true }) ∧
      (∀ off ∈ [0x000, 0x004, 0x018, 0x0FC, 0x420, 0x500, 0xFFC],
        off % 4 = 0 ∧ off < 4096 ∧ nopState.busWrite off 3#32 = nopState) ∧
      (3#32).getLsbD 31 = false ∧ nopState.busWrite 0x008 3#32 = { nopState with ie := true, nsrc := true } ∧
      (0x80000003#32).getLsbD 31 = true ∧ nopState.busWrite 0x008 0x80000003#32 = State.reset ∧
      ({ nopState with werr := true } : State).busWrite 0x00C 0x00010000#32 = nopState := by decide

theorem witness_BusyWritesAreDropped_read :
    let s := { nopState with inbox := [readEvent 0xFFC] }
    s.busy = true ∧ s.inbox = readEvent 0xFFC :: [] ∧ s.inReset = false := ⟨rfl, rfl, rfl⟩

/-- A step while which the command stays executing: a candidate NOP does not want. -/
theorem witness_BusyFreezesOperands :
    let s := { nopState with inbox := [.candidate 7#256] }
    s.busy = true ∧ ∃ t, step s = .next t ∧ t.busy = true := ⟨rfl, _, rfl, rfl⟩

/-- And one in which a candidate is drawn. -/
theorem witness_BusyFreezesOperands_draw :
    let s := { signing false 1 0 0 [0] with inbox := [.candidate 7#256] }
    s.busy = true ∧ ∃ t, step s = .next t ∧ t.busy = true ∧ t.draws = [0#256, 7#256] :=
  ⟨by decide +kernel, _, rfl, by decide +kernel, by decide +kernel⟩

/-- Both ways a command ends: its commit, and the reset input. -/
theorem witness_CommandEndsByCommitOrReset :
    nopState.busy = true ∧ (∃ t, step nopState = .next t ∧ t.busy = false ∧ t.done = true) ∧
      ∃ t, step { nopState with inbox := [.resetPin true] } = .next t ∧ t.busy = false ∧ t.done = false :=
  ⟨rfl, ⟨_, rfl, rfl, rfl⟩, ⟨_, rfl, rfl, rfl⟩⟩

/-- Both clauses about an empty inbox. -/
theorem witness_EveryCommandCommitsOrWaits :
    (nopState.busy = true ∧ nopState.inReset = false ∧ nopState.inbox = [] ∧ nopState.awaitsCandidate = false) ∧
      let s := signing false 1 0 0 []
      s.busy = true ∧ s.inReset = false ∧ s.inbox = [] ∧ s.awaitsCandidate = true :=
  ⟨⟨rfl, rfl, rfl, rfl⟩, by decide +kernel⟩

/-- A frame's premises: offsets that are none of the destination's words, STATUS or PINF, at the ends of the ranges. -/
theorem witness_CommandFrameOfEveryCommand :
    (∃ t, exec (.fadd .p 2 0 1) (withF 0 5 State.reset) = .next t) ∧
      ∀ off ∈ [0x000, 0x010, 0x13C, 0x160, 0x300, 0x400, 0xFFC], regAt off ≠ .status ∧
        (regAt off = .pinf → destP (.fadd .p 2 0 1) = []) ∧
        ∀ r ∈ destF (.fadd .p 2 0 1), ∀ k, regAt off ≠ .f r k := ⟨⟨_, rfl⟩, by decide⟩

theorem witness_CommandFrameOfEveryCommand_point :
    (∃ t, exec (.pldg 1) State.reset = .next t) ∧
      ∀ off ∈ [0x000, 0x010, 0x33C, 0x380, 0x400, 0xFFC], regAt off ≠ .status ∧
        regAt off ≠ .pinf ∧ ∀ j ∈ destP (.pldg 1), ∀ k, regAt off ≠ .x j k ∧ regAt off ≠ .y j k :=
  ⟨⟨_, rfl⟩, by decide⟩

/-- The flag clauses: PCHK and PEQ without error change a flag. -/
theorem witness_CommandFrameOfEveryCommand_flags :
    (∃ t, exec (.pchk 0) State.reset = .next t ∧ t.onCurveFlag ≠ State.reset.onCurveFlag) ∧
      ∃ t, exec (.peq 0 1) State.reset = .next t ∧ t.eqFlag ≠ State.reset.eqFlag :=
  ⟨⟨_, rfl, by decide +kernel⟩, ⟨_, rfl, by decide +kernel⟩⟩

theorem witness_ErrorsArePrecise :
    let s := State.reset.accept 0x00000204#32
    Instr.wellFormed (.finv .p 2 0) = true ∧ s.busy = true ∧
      ∃ t, exec (.finv .p 2 0) s = .next t ∧ t.busy = false ∧ t.err = some .divZero :=
  ⟨rfl, rfl, _, rfl, by decide +kernel, by decide +kernel⟩

/-- SIGN's form of it: the nonce is cleared. -/
theorem witness_ErrorsArePrecise_sign :
    let s := signing true 0 5 0 []
    Instr.wellFormed (.sign 2 0 1) = true ∧ s.busy = true ∧
      ∃ t, exec (.sign 2 0 1) s = .next t ∧ t.busy = false ∧ t.err = some .invalidScalar :=
  ⟨rfl, by decide +kernel, afterError { signing true 0 5 0 [] with nonce := 0#256 } .invalidScalar, by rfl, rfl, rfl⟩

/-- A point, a field result, a point at infinity; below, a signature. -/
theorem witness_CommandResultsAreCanonical :
    (nopState.busy = true ∧ ∃ t, exec (.pldg 1) nopState = .next t ∧ t.busy = false ∧ t.err = none) ∧
      (∃ t, exec (.fadd .n 2 0 1) nopState = .next t ∧ t.busy = false ∧ t.err = none) ∧
      ∃ t, exec (.pdbl 1 0) nopState = .next t ∧ t.busy = false ∧ t.err = none ∧ t.inf[1] = true :=
  ⟨⟨rfl, _, rfl, rfl, rfl⟩, ⟨_, rfl, rfl, rfl⟩, ⟨_, rfl, by decide +kernel, by decide +kernel, by decide +kernel⟩⟩

theorem witness_CommandResultsAreCanonical_sign :
    let s := signing true 1 1 0 []
    s.busy = true ∧ (after (exec (.sign 2 0 1) s)).busy = false ∧ (after (exec (.sign 2 0 1) s)).err = none := by
  decide +kernel

/-- The reserved ranges at their ends. -/
theorem witness_WindowReadsTheRegisterMap :
    ∀ off ∈ [0x018, 0x0FC, 0x420, 0x4FC, 0x5C0, 0xFFC],
      ((0x018 ≤ off ∧ off < 0x100) ∨ (0x420 ≤ off ∧ off < 0x500) ∨ (0x5C0 ≤ off ∧ off < 0x1000)) ∧ off % 4 = 0 ∧
        nopState.busRead off = 0#32 := by decide

/-- The reserved bit ranges at their ends, with every field set. -/
theorem witness_ControlWordsReadTheirFields :
    let s := { State.reset with
      ie := true, nsrc := true, busy := true, done := true, err := some .entropyFail, onCurveFlag := true,
      eqFlag := true, werr := true }
    s.busRead 0x008 = 0x00000003#32 ∧ s.busRead 0x00C = 0x00010353#32 ∧ s.busRead 0x014 = 0x0000000F#32 ∧
      (∀ b ∈ [2, 31, 32], (s.busRead 0x008).getLsbD b = false) ∧
      (∀ b ∈ [2, 3, 10, 15, 17, 31, 32], (s.busRead 0x00C).getLsbD b = false) ∧
      ∀ b ∈ [4, 31, 32], (s.busRead 0x014).getLsbD b = false := by decide

/-- Each clause at the ends of its range. -/
theorem witness_IdleWriteReplacesOneWord :
    State.reset.busy = false ∧
      (∀ off ∈ [0x100, 0x2FC, 0x300, 0x3FC], off % 4 = 0 ∧ 0x100 ≤ off ∧ off < 0x400 ∧
        (State.reset.busWrite off 9#32).busRead off = 9#32 ∧
        ∀ off' ∈ [0x000, 0x104, 0x3F8, 0xFFC], off' % 4 = 0 ∧ off' < 4096 ∧ off' ≠ off) ∧
      (State.reset.busWrite 0x014 9#32).busRead 0x014 = 9#32 ∧
      wideWord (State.reset.busWrite 0x400 9#32).nonce 0 = 9#32 ∧
      wideWord (State.reset.busWrite 0x41C 9#32).nonce 7 = 9#32 ∧ (7 : Fin 8) ≠ 0 := by decide

/-- The clauses at the ends of their ranges. -/
theorem witness_ControlWrites :
    (3#32).getLsbD 31 = false ∧
      ∀ off ∈ [0x000, 0x004, 0x018, 0x0FC, 0x420, 0xFFC],
        (off = 0x000 ∨ off = 0x004 ∨ (0x018 ≤ off ∧ off < 0x100) ∨ (0x420 ≤ off ∧ off < 0x1000)) ∧ off % 4 = 0 := by
  decide

theorem witness_EightWordWritesLoadARegister : State.reset.busy = false := rfl

/-- The clause outside the window: the addresses just above it, and just below it where there are such. -/
theorem witness_ReadsAreServedAndBadAccessesFault_outside :
    Config.base + 4096 ≤ Config.base + 4096 ∧ (0 < Config.base → Config.base - 1 < Config.base) ∧
      ({ State.reset with inbox := [.access (.read (Config.base + 4096) 4)] } : State).inbox =
        .access (.read (Config.base + 4096) 4) :: [] :=
  ⟨Nat.le_refl _, fun h => Nat.sub_lt h Nat.one_pos, rfl⟩

/-- Each clause, at the ends of the window. -/
theorem witness_ReadsAreServedAndBadAccessesFault :
    State.reset.inReset = false ∧
      (∀ off ∈ [0x000, 0xFFC], off < 4096 ∧ off % 4 = 0 ∧
        ({ State.reset with inbox := [.access (.read (Config.base + off) 4)] } : State).inbox =
          .access (.read (Config.base + off) 4) :: [] ∧
        ({ State.reset with inbox := [.access (.write (Config.base + off) 4 1#32)] } : State).inbox =
          .access (.write (Config.base + off) 4 1#32) :: []) ∧
      (∀ off ∈ [0x001, 0xFFF], off < 4096 ∧ off % 4 ≠ 0 ∧
        ({ State.reset with inbox := [.access (.write (Config.base + off) 4 1#32)] } : State).inbox =
          .access (.write (Config.base + off) 4 1#32) :: []) ∧ (1 : Nat) ≠ 4 ∧ (8 : Nat) ≠ 4 := by
  refine ⟨rfl, ?_, ?_, by decide, by decide⟩ <;> simp

theorem witness_NonceIsHidden : isSign .nop = false ∧ ∃ t, exec .nop nopState = .next t := ⟨rfl, _, rfl⟩

/-- Both clauses about a point register. -/
theorem witness_ByteEncodings : State.reset.inf[0] = true ∧ (withP 3 1 2 State.reset).inf[3] = false := by decide

/-! The commands -/

theorem witness_FinvCompletes :
    (withF 0 2 State.reset).f[0].toNat % activeModulus .p ≠ 0 ∧
      (withF 0 modP State.reset).f[0].toNat % activeModulus .n ≠ 0 ∧
      (withF 0 (2 ^ 256 - 1) State.reset).f[0].toNat % activeModulus .n ≠ 0 := by decide +kernel

theorem witness_FinvOfZeroFails :
    State.reset.f[0].toNat = 0 ∧ (withF 0 modP State.reset).f[0].toNat = activeModulus .p ∧
      (withF 0 ordN State.reset).f[0].toNat = activeModulus .n := by decide +kernel

/-- Each of the three disjuncts: FINV, SMUL and DERIVE, SIGN (its SIG_DEGENERATE by k = d = 1, z = genX). -/
theorem witness_ErrorCodesByCommand :
    let s := State.reset.accept 0#32
    s.busy = true ∧ Instr.wellFormed (.sign 2 0 1) = true ∧
      (∃ t, exec (.finv .n 2 0) s = .next t ∧ t.busy = false ∧ t.err = some .divZero) ∧
      (∃ t, exec (.smul 0 0 0) s = .next t ∧ t.busy = false ∧ t.err = some .invalidScalar) ∧
      (∃ t, exec (.derive 0 0) s = .next t ∧ t.busy = false ∧ t.err = some .invalidScalar) :=
  ⟨rfl, rfl, ⟨_, rfl, by decide +kernel, by decide +kernel⟩, ⟨_, rfl, by decide +kernel, by decide +kernel⟩,
    ⟨_, rfl, by decide +kernel, by decide +kernel⟩⟩

theorem witness_ErrorCodesByCommand_sign :
    let s := run 0x00010218 (signState true 1 1 Config.curve.genX)
    let u := after (step (signing false 1 0 0 [0, 0, ordN, ordN + 1]))
    s.busy = false ∧ s.err = some .sigDegenerate ∧ u.busy = false ∧ u.err = some .entropyFail := by decide +kernel

/-- Both flag values, and a reduced point at the end of its range. -/
theorem witness_PointRegistersReadAndWrite :
    State.reset.inf[0] = true ∧ (withP 0 1 1 State.reset).inf[0] = false ∧
      Reduced Config.curve (.aff (modP - 1) 0) ∧ Reduced Config.curve .inf :=
  ⟨by decide, by decide, by unfold Reduced; decide, trivial⟩

/-- The three clauses: Inf, a point with y = 0, another point. -/
theorem witness_PdblCompletes :
    State.reset.readP 0 = .inf ∧ (withP 0 5 0 State.reset).readP 0 = .aff 5 0 ∧
      (withP 0 5 modP State.reset).readP 0 = .aff 5 0 ∧ (withP 0 1 1 State.reset).readP 0 = .aff 1 1 := by
  decide +kernel

/-- The clauses: Inf on the left, Inf on the right, equal abscissae (opposite, y = 0, equal), a chord. -/
theorem witness_PaddCompletes :
    State.reset.readP 0 = .inf ∧
      (let s := withP 0 1 1 State.reset; s.readP 0 = .aff 1 1 ∧ s.readP 1 = .inf) ∧
      (let s := withP 0 1 2 (withP 1 1 3 State.reset); s.readP 0 = .aff 1 2 ∧ s.readP 1 = .aff 1 3) ∧
      (let s := withP 0 5 0 (withP 1 5 0 State.reset); s.readP 0 = .aff 5 0 ∧ s.readP 1 = .aff 5 0) ∧
      (let s := withP 0 1 1 (withP 1 1 1 State.reset); s.readP 0 = .aff 1 1 ∧ s.readP 1 = .aff 1 1) ∧
      let s := withP 0 1 1 (withP 1 2 2 State.reset); s.readP 0 = .aff 1 1 ∧ s.readP 1 = .aff 2 2 := by
  decide +kernel

/-- The base point and its double, on the curve. -/
def twoG : Point :=
  .aff 0xC6047F9441ED7D6D3045406E95C07CD85C778E4B8CEF3CA7ABAC09B95C709EE5
    0x1AE168FEA63DC339A3C58419466CEAEEF7F632653266D0E1236431A950CFE52A

theorem witness_GroupLawNeverFails :
    Reduced Config.curve (basePoint Config.curve) ∧ Reduced Config.curve .inf ∧ Reduced Config.curve (.aff 1 1) ∧
      1 ≤ 2 ^ 256 :=
  ⟨⟨by decide, by decide⟩, trivial, ⟨by decide, by decide⟩, by decide⟩

theorem witness_GroupLawStaysOnTheCurve :
    Reduced Config.curve (basePoint Config.curve) ∧ Reduced Config.curve twoG ∧
      onCurve Config.curve (basePoint Config.curve) = true ∧ onCurve Config.curve twoG = true ∧
      (∃ d, ecDbl Config.curve (basePoint Config.curve) = .ok d) ∧
      ∃ a, ecAdd Config.curve (basePoint Config.curve) twoG = .ok a := by
  exact ⟨⟨by decide, by decide⟩, ⟨by decide, by decide⟩, by decide +kernel, by decide +kernel,
    ⟨twoG, by decide +kernel⟩, ⟨.aff 0xF9308A019258C31049344F85F89D5229B531C845836F99B08601F113BCE036F9
      0x388F7B0F632DE8140FE337E62A37F3566500A99934C2231B6CB9FD7584B8E672, by decide +kernel⟩⟩

/-- A doubling of G beside three registers at Inf, and a write the premise admits at each end of its range. -/
theorem witness_StepKeepsPointsOnTheCurve :
    let s := (withP 0 Config.curve.genX Config.curve.genY State.reset).withFetchWord 32 0x00000108
    PointsOnCurve s ∧ (∃ t, exec (.pdbl 1 0) s = .next t) ∧ (∃ t, step s = .next t) ∧ s.inbox = [] :=
  ⟨by unfold PointsOnCurve; decide +kernel, ⟨_, rfl⟩, ⟨_, rfl⟩, rfl⟩

theorem witness_StepKeepsPointsOnTheCurve_write (off : Nat) (h : off = 0x010 ∨ off = 0x018 ∨ off = 0x2FC ∨ off = 0x400) :
    let s := { State.reset with inbox := [writeEvent off 1#32] }
    PointsOnCurve s ∧ (∃ t, step s = .next t) ∧ s.busy = false ∧ s.inbox = [writeEvent off 1#32] ∧
      Config.base + off ≠ Config.base + 0x014 ∧
      (Config.base + off < Config.base + 0x300 ∨ Config.base + 0x400 ≤ Config.base + off) := by
  have hp : PointsOnCurve State.reset := by unfold PointsOnCurve; decide
  refine ⟨fun j => hp j, ?_, rfl, rfl, by omega, by omega⟩
  rcases h with rfl | rfl | rfl | rfl <;>
    exact ⟨_, by simp [step, writeEvent, eventStep, busAccess, addrAccess, offsetAccess]; rfl⟩

theorem witness_FixedLoopGivesTheSamePoint : 1 ≤ 2 ^ 256 - 1 ∧ 2 ^ 256 - 1 < 2 ^ 256 ∧ 1 ≤ 1 ∧ 1 < 2 ^ 256 := by decide

/-- Also DoubleAndAddRecurrence (k = 1), SmulCompletes, DeriveCompletes and DeriveIsNeverInfinity: the valid scalars' ends. -/
theorem witness_ValidScalars :
    (let s := withF 0 1 State.reset; 1 ≤ s.f[0].toNat ∧ s.f[0].toNat < Config.curve.n) ∧
      let s := withF 0 (ordN - 1) State.reset; 1 ≤ s.f[0].toNat ∧ s.f[0].toNat < Config.curve.n := by decide +kernel

theorem witness_InvalidScalarsAreRejected :
    State.reset.f[0].toNat = 0 ∧ Config.curve.n ≤ (withF 0 ordN State.reset).f[0].toNat ∧
      Config.curve.n ≤ (withF 0 (2 ^ 256 - 1) State.reset).f[0].toNat := by decide +kernel

theorem witness_PublicKeyOfOne : (withF 0 1 State.reset).f[0] = 1#256 := by decide

theorem witness_SignCompletes :
    let s := signState true 1 1 0
    let q := { s with lnsrc := true }
    (2 : FReg).val % 2 = 0 ∧ q.lnsrc = true ∧ 1 ≤ q.f[0].toNat ∧ q.f[0].toNat < Config.curve.n ∧
      1 ≤ q.nonce.toNat ∧ q.nonce.toNat < Config.curve.n ∧
      ecMul Config.curve q.nonce.toNat (.aff Config.curve.genX Config.curve.genY) =
        .ok (.aff Config.curve.genX Config.curve.genY) ∧
      Config.curve.genX % Config.curve.n ≠ 0 ∧
      ¬ ((q.f[0].toNat : Int) * ((Config.curve.genX % Config.curve.n : Nat) : Int)) % Config.curve.n =
        ((q.nonce.toNat : Int) * (q.f[1].toNat : Int)) % Config.curve.n := by decide +kernel

/-- The clauses in their order: d = 0 and d = n; k = 0 and k = n; s = 0 (d = k = 1, z = genX). That r = 0 happens for some
nonce is not claimed. -/
theorem witness_SignErrorsInOrder :
    (2 : FReg).val % 2 = 0 ∧ (signState true 0 1 1).f[0].toNat = 0 ∧
      Config.curve.n ≤ (signState true ordN 1 1).f[0].toNat ∧
      1 ≤ (signing true 1 0 1 []).f[0].toNat ∧ (signing true 1 0 1 []).lnsrc = true ∧
      (signing true 1 0 1 []).nonce.toNat = 0 ∧ Config.curve.n ≤ (signing true 1 ordN 1 []).nonce.toNat := by
  decide +kernel

theorem witness_SignErrorsInOrder_degenerate :
    let s := signing true 1 1 Config.curve.genX []
    1 ≤ s.f[0].toNat ∧ s.f[0].toNat < Config.curve.n ∧ s.lnsrc = true ∧ 1 ≤ s.nonce.toNat ∧
      s.nonce.toNat < Config.curve.n ∧
      ecMul Config.curve s.nonce.toNat (.aff Config.curve.genX Config.curve.genY) =
        .ok (.aff Config.curve.genX Config.curve.genY) ∧
      ((s.f[0].toNat : Int) * ((Config.curve.genX % Config.curve.n : Nat) : Int)) % Config.curve.n =
        ((s.nonce.toNat : Int) * (s.f[1].toNat : Int)) % Config.curve.n := by decide +kernel

theorem witness_SignTakesFirstGoodCandidate :
    let s := signing false 1 0 1 [0, ordN, 7]
    s.lnsrc = false ∧ s.draws = [0#256, BitVec.ofNat 256 ordN] ++ 7#256 :: [] ∧ 2 < Config.entMaxTries ∧
      (∀ v ∈ [0#256, BitVec.ofNat 256 ordN], rejected v = true) ∧ rejected 7#256 = false :=
  ⟨by decide +kernel, by decide +kernel, by decide, List.all_eq_true.mp (by decide +kernel), by decide +kernel⟩

/-- Its hypothesis on the run with that candidate in NONCE: the next state reports no ILLEGAL_CMD. -/
theorem witness_SignTakesFirstGoodCandidate_next :
    ∃ t, exec (.sign 2 0 1) { signing false 1 0 1 [0, ordN, 7] with lnsrc := true, nonce := 7#256 } = .next t ∧
      t.err ≠ some .illegalCmd := ⟨_, rfl, by decide +kernel⟩

/-- Both clauses at their bounds: 0 and 3 candidates drawn, and 4. -/
theorem witness_SignWaitsThenFails (ds : List Nat) (h : ds ∈ [[], [0, 0, ordN], [0, 0, ordN, 0]]) :
    let s := signing false 1 0 0 ds
    s.lnsrc = false ∧ 1 ≤ s.f[0].toNat ∧ s.f[0].toNat < Config.curve.n ∧ (∀ v ∈ s.draws, rejected v = true) ∧
      (s.draws.length = 0 ∨ s.draws.length = 3 ∨ s.draws.length = 4) := by
  simp only [List.mem_cons, List.not_mem_nil, or_false] at h
  rcases h with rfl | rfl | rfl <;>
    exact ⟨rfl, by decide +kernel, by decide +kernel, List.all_eq_true.mp (by decide +kernel), by decide +kernel⟩

/-- The first clause. -/
theorem witness_CandidatesAreDrawnOnlyWhenNeeded :
    let s := { signing false 1 0 0 [0, 0, 0] with inbox := [.candidate 7#256] }
    s.inbox = .candidate 7#256 :: [] ∧ s.inReset = false ∧ s.busy = true ∧ decode s.lcmd = .ok (.sign 2 0 1) ∧
      s.lnsrc = false ∧ validScalar Config.curve s.f[0].toNat = true ∧ (∀ v ∈ s.draws, rejected v = true) ∧
      s.draws.length < Config.entMaxTries :=
  ⟨rfl, rfl, rfl, by decide, rfl, by decide +kernel, List.all_eq_true.mp (by decide +kernel), by decide +kernel⟩

/-- Each disjunct of the second: idle; the nonce from NONCE; all tries drawn; a good candidate drawn; no valid private
scalar. -/
theorem witness_CandidatesAreDrawnOnlyWhenNeeded_not :
    State.reset.busy = false ∧ (signing true 1 0 0 []).lnsrc = true ∧
      Config.entMaxTries ≤ (signing false 1 0 0 [0, 0, 0, 0]).draws.length ∧
      rejected 7#256 = false ∧ 7#256 ∈ (signing false 1 0 0 [0, 7]).draws.take Config.entMaxTries ∧
      decode (signing false 0 0 0 []).lcmd = .ok (.sign 2 0 1) ∧
      validScalar Config.curve (signing false 0 0 0 []).f[0].toNat = false := by decide +kernel

theorem witness_NonceIsUsedOnce :
    let s := signing true 0 5 0 []
    s.busy = true ∧ (after (exec (.sign 2 0 1) s)).busy = false ∧ (after (exec (.sign 2 0 1) s)).nsrc = true := by
  decide +kernel

/-- Both clauses: hashes 0 and n; d = k = 1 and z = 0. -/
theorem witness_HashIsUsedModuloN :
    0 % Config.curve.n = ordN % Config.curve.n ∧ 1 < Config.curve.n ∧
      signCore Config.curve 1 1 0 = .ok (Config.curve.genX, 1) := by decide +kernel

theorem witness_SoftResetIsAReset :
    let s := { nopState with inbox := [writeEvent 0x008 0xFFFFFFFF#32] }
    s.inbox = writeEvent 0x008 0xFFFFFFFF#32 :: [] ∧ s.inReset = false ∧ (0xFFFFFFFF#32).getLsbD 31 = true :=
  ⟨rfl, rfl, by decide⟩

/-- Each clause's event, at the ends of the window for the accesses. -/
theorem witness_HardwareReset (b : Bool) :
    ({ nopState with inbox := [.resetPin b] } : State).inbox = .resetPin b :: [] ∧
      let r := State.reset.resetPin true
      r.inReset = true ∧ r.inbox = [] ∧ ({ r with inbox := [.engine] } : State).inbox = .engine :: [] ∧
        ({ r with inbox := [.candidate 7#256] } : State).inbox = .candidate 7#256 :: [] ∧
        ∀ off ∈ [0, 4095], off < 4096 ∧
          ({ r with inbox := [.access (.read (Config.base + off) 4)] } : State).inbox =
            .access (.read (Config.base + off) 4) :: [] := by
  refine ⟨rfl, rfl, rfl, rfl, rfl, ?_⟩
  simp

/-- The clauses' premises: a commit, a CTRL write without bit 31, a 1 for DONE, an idle CMD write, a soft reset. -/
theorem witness_InterruptFollowsDone :
    nopState.busy = true ∧ (∃ t, exec .nop nopState = .next t ∧ t.busy = false) ∧ (1#32).getLsbD 31 = false ∧
      (2#32).getLsbD 1 = true ∧ State.reset.busy = false ∧ (0x80000000#32).getLsbD 31 = true :=
  ⟨rfl, ⟨_, rfl, rfl⟩, by decide, by decide, rfl, by decide⟩

/-- Idle: reset meets the invariant, and steps. -/
theorem witness_StepKeepsTheInvariant : State.reset.Inv ∧ step State.reset = .next State.reset :=
  ⟨⟨fun h => absurd h (by decide), fun _ => ⟨rfl, rfl, rfl⟩, by decide, fun _ h => absurd h List.not_mem_nil,
    fun h => absurd rfl h, fun h => absurd h (by decide)⟩, rfl⟩

/-- Busy, with candidates drawn and one offered: each premise inside the invariant but the reset input's is met. -/
theorem witness_StepKeepsTheInvariant_busy :
    let s := { signing false 1 0 0 [0, ordN] with inbox := [.candidate 7#256] }
    s.Inv ∧ s.busy = true ∧ s.draws.dropLast = [0#256] ∧ ∃ t, step s = .next t :=
  ⟨⟨fun _ => ⟨rfl, rfl, rfl⟩, fun h => absurd h (by decide +kernel), by decide +kernel,
    List.all_eq_true.mp (by decide +kernel), fun _ => by decide +kernel, fun h => absurd h (by decide +kernel)⟩,
    rfl, by decide +kernel, _, rfl⟩

/-- With the reset input asserted, and released next. -/
theorem witness_StepKeepsTheInvariant_reset :
    let s := { State.reset.resetPin true with inbox := [.resetPin false] }
    s.Inv ∧ s.inReset = true ∧ ∃ t, step s = .next t ∧ t.inReset = false :=
  ⟨⟨fun h => absurd h (by decide), fun _ => ⟨rfl, rfl, rfl⟩, by decide, fun _ h => absurd h List.not_mem_nil,
    fun h => absurd rfl h, fun _ => rfl⟩, rfl, _, rfl, rfl⟩

end Sys2Proof.Tests
end

section
/-! SUPPORT. Reading and writing a point register (rules R15, R16). -/

namespace Sys2Proof.Machine

/-- Rule R15 where INF is 1: the coordinates are ignored. -/
theorem readP_of_inf {s : State} {j : PReg} (h : s.inf[j.val] = true) : s.readP j = .inf := by
  simp [State.readP, h]

/-- Rule R15 where INF is 0. -/
theorem readP_of_not_inf {s : State} {j : PReg} (h : s.inf[j.val] = false) :
    s.readP j = .aff (s.x[j.val].toNat % Config.curve.p) (s.y[j.val].toNat % Config.curve.p) := by
  simp [State.readP, h]

/-- A coordinate in [0, p) fits a 256-bit register. -/
theorem toNat_ofNat_of_lt_p {x : Nat} (h : x < Config.curve.p) : (BitVec.ofNat 256 x).toNat = x := by
  have hp : Config.curve.p < 2 ^ 256 := (activeModulus_bounds .p).2
  rw [BitVec.toNat_ofNat, Nat.mod_eq_of_lt (h.trans hp)]

/-- Rule R16: the register written holds the reduced point value. -/
theorem holdsPoint_writeP (s : State) (j : PReg) {q : Point} (hq : Reduced Config.curve q) :
    HoldsPoint (s.writeP j q) j q := by
  cases q with
  | inf => simp [HoldsPoint]
  | aff x y =>
    obtain ⟨hx, hy⟩ := hq
    simp [HoldsPoint, -BitVec.toNat_ofNat, toNat_ofNat_of_lt_p hx, toNat_ofNat_of_lt_p hy]

/-- A register that holds a reduced point value reads as that value. -/
theorem readP_of_holdsPoint {t : State} {j : PReg} {q : Point} (hq : Reduced Config.curve q)
    (h : HoldsPoint t j q) : t.readP j = q := by
  cases q with
  | inf => exact readP_of_inf h.1
  | aff x y =>
    obtain ⟨hx, hy⟩ := hq
    obtain ⟨hinf, hX, hY⟩ := h
    rw [readP_of_not_inf hinf, hX, hY, Nat.mod_eq_of_lt hx, Nat.mod_eq_of_lt hy]

/-- Settles O32: rule R15's two cases, and reading after rule R16's write through what the register then holds. -/
theorem pointRegistersReadAndWrite : Obligations.PointRegistersReadAndWrite := by
  unfold Obligations.PointRegistersReadAndWrite
  intro s j
  refine ⟨readP_of_inf, readP_of_not_inf, fun q hq => ?_⟩
  have hold : HoldsPoint (s.writeP j q) j q := holdsPoint_writeP s j hq
  exact ⟨readP_of_holdsPoint hq hold, hold⟩

end Sys2Proof.Machine
end

section
/-! SUPPORT. The command word read back (rules R46, R47): no word of a command has a reserved bit set, and every row reads
each operand field back by its kind. -/

namespace Sys2Proof

/-- A field check that succeeds passes on what it read. -/
@[simp] theorem except_ok_bind {α β : Type} (a : α) (f : α → Except Illegal β) : (Except.ok a >>= f) = f a :=
  pure_bind a f

/-- The word of a command passes the check of the reserved bits. -/
theorem decode_encode_eq_decodeRow (i : Instr) : decode (encode i) = decodeRow (encode i) := by
  cases i <;> exact decode_assemble ..

/-- Rule R47: every row reads back the operands its command was encoded from. Well-formedness is needed by SIGN alone, whose
destination is of kind E. -/
theorem decodeRow_encode {i : Instr} (h : i.wellFormed = true) : decodeRow (encode i) = .ok i := by
  cases i with
  | fadd m rd ra rb | fsub m rd ra rb | fmul m rd ra rb =>
    -- Kinds F and M admit every value: the row checks nothing.
    simp [encode, decodeRow]
  | nop | finv m rd ra | pdbl rd ra | padd rd ra rb | pchk ra | peq ra rb | pldg rd | smul rd ra rb | derive rd ra =>
    -- Unused fields are encoded as 0, and kind P reads back by `kindP_bitsP`.
    simp [encode, decodeRow]
  | sign rd ra rb =>
    have pair : kindE (bitsF rd) = .ok rd := kindE_bitsF rd h
    simp [encode, decodeRow, pair]

/-- Settles O3: the word reaches its row, and the row reads the command back. -/
theorem decodeOfEncode : Obligations.DecodeOfEncode := by
  unfold Obligations.DecodeOfEncode
  intro i h
  rw [decode_encode_eq_decodeRow, decodeRow_encode h]

end Sys2Proof
end

section
/-! SUPPORT. Commits that stage no write, and acceptance, as frames (rules R55, R58, R61, R63). -/

namespace Sys2Proof.Machine

/-- Equal register files agree outside any list of destinations. -/
theorem fieldsBut_of_eq {s t : State} (hf : t.f = s.f) (rds : List FReg) : FieldsBut s t rds := by
  intro i _
  rw [hf]

/-- Equal point files agree outside any list of destinations. -/
theorem pointsBut_of_eq {s t : State} (hx : t.x = s.x) (hy : t.y = s.y) (hinf : t.inf = s.inf) (rds : List PReg) :
    PointsBut s t rds := by
  intro j _
  rw [hx, hy, hinf]
  exact ⟨rfl, rfl, rfl⟩

/-- Rule R58: what every commit leaves of the control registers. -/
theorem commitControl_commit (s : State) (r : Except CmdError Staged) :
    CommitControl s (s.commit r) (s.commit r).err := by
  simp [CommitControl]

/-- Rule R58: a commit with an error touches no register and no flag. -/
theorem commandFrame_commit_error (s : State) (e : CmdError) (fs : List FReg) (ps : List PReg) :
    CommandFrame s (s.commit (.error e)) (some e) fs ps :=
  ⟨commitControl_commit s (.error e), ⟨rfl, rfl⟩, rfl, fieldsBut_of_eq rfl fs, pointsBut_of_eq rfl rfl rfl ps⟩

/-- Rule R58: neither does a commit without error that stages no write and no flag. -/
theorem commandFrame_commit_empty (s : State) (fs : List FReg) (ps : List PReg) :
    CommandFrame s (s.commit (.ok ⟨[], none, none⟩)) none fs ps :=
  ⟨commitControl_commit s (.ok ⟨[], none, none⟩), ⟨rfl, rfl⟩, rfl, fieldsBut_of_eq rfl fs,
    pointsBut_of_eq rfl rfl rfl ps⟩

/-- Rule R106: after a commit irq is IE, since DONE is set. -/
theorem irq_commit (s : State) (r : Except CmdError Staged) : (s.commit r).irq = s.ie := by
  simp [State.irq]

/-- Rule R61: the engine's turn on an illegal word. -/
theorem engineStep_of_decode_error {s : State} {e : Illegal} (hb : s.busy = true) (hr : s.inReset = false)
    (hd : decode s.lcmd = .error e) : engineStep s = .next (s.commit (.error .illegalCmd)) := by
  simp [engineStep, State.commitIllegal, hb, hr, hd]

/-- Rule R55: a write to CMD while idle is an acceptance. -/
theorem busWrite_cmd {s : State} (hb : s.busy = false) (w : Word) : s.busWrite 0x010 w = s.accept w := by
  have hreg : regAt 0x010 = .cmd := rfl
  simp only [State.busWrite, hreg, State.writeReg, State.unlessBusy, hb, Bool.false_eq_true, if_false]

/-- Settles O17: NOP's commit stages nothing. -/
theorem nopCompletes : Obligations.NopCompletes := by
  unfold Obligations.NopCompletes
  intro s
  exact ⟨_, rfl, commandFrame_commit_empty s [] []⟩

/-- Settles O9: the write is the acceptance, whose fields are read off one by one. -/
theorem cmdWriteAccepts : Obligations.CmdWriteAccepts := by
  unfold Obligations.CmdWriteAccepts
  intro s w hb
  exact ⟨s.accept w, busWrite_cmd hb w, by simp⟩

/-- Settles O8: an error commit, after which the engine is idle and so accepts the next CMD write. -/
theorem illegalWordCommits : Obligations.IllegalWordCommits := by
  unfold Obligations.IllegalWordCommits
  intro s e hb hr hd
  refine ⟨_, engineStep_of_decode_error hb hr hd, commandFrame_commit_error s .illegalCmd [] [], irq_commit s _,
    fun w => ?_⟩
  rw [busWrite_cmd (commit_busy s _)]
  simp

end Sys2Proof.Machine
end

section
/-! SUPPORT. The registers by what a write to them does while busy (rule R56), where they stand in the window (rule R30), and a
read as the step that answers it (rule R39). -/

namespace Sys2Proof.Machine

/-- A register a busy block protects: a write to it is dropped and sets WERR (rule R56). -/
def Reg.guarded : Reg → Bool
  | .cmd | .pinf | .f _ _ | .x _ _ | .y _ _ | .nonce _ => true
  | .id | .version | .ctrl | .status | .const _ _ | .reserved => false

/-- A register no write changes, busy or idle (rules R18, R19, R31). -/
def Reg.readOnly : Reg → Bool
  | .id | .version | .const _ _ | .reserved => true
  | .ctrl | .status | .cmd | .pinf | .f _ _ | .x _ _ | .y _ _ | .nonce _ => false

theorem writeReg_of_guarded {s : State} {r : Reg} (hb : s.busy = true) (hr : r.guarded = true) (v : Word) :
    s.writeReg r v = { s with werr := true } := by
  have dropped (t : State) : s.unlessBusy t = { s with werr := true } := if_pos hb
  cases r with
  | cmd | pinf | f | x | y | nonce => exact dropped _
  | id | version | ctrl | status | const | reserved => cases hr

theorem writeReg_of_readOnly {r : Reg} (hr : r.readOnly = true) (s : State) (v : Word) : s.writeReg r v = s := by
  cases r with
  | id | version | const | reserved => rfl
  | ctrl | status | cmd | pinf | f | x | y | nonce => cases hr

/-- Rule R30: F, X, Y and NONCE fill the offsets from 0x100 to 0x41F. -/
theorem regAt_data_guarded {off : Nat} (hlo : 0x100 ≤ off) (hhi : off < 0x420) : (regAt off).guarded = true := by
  unfold regAt
  rw [if_neg (by omega)]
  split
  · rfl -- F
  · split
    · split <;> rfl -- X or Y
    · rfl -- NONCE, by `hhi`

/-- Rules R30, R31: the offsets between PINF and F0 are reserved. -/
theorem regAt_low_reserved {off : Nat} (hlo : 0x018 ≤ off) (hhi : off < 0x100) : regAt off = .reserved := by
  unfold regAt
  rw [if_pos hhi]
  split
  case h_7 => rfl -- none of the six words below 0x018
  all_goals omega

/-- Rule R30: past NONCE the window holds the constants and reserved words. -/
theorem regAt_high_readOnly {off : Nat} (hlo : 0x420 ≤ off) : (regAt off).readOnly = true := by
  unfold regAt
  rw [if_neg (by omega), if_neg (by omega), if_neg (by omega), if_neg (by omega)]
  split
  · rfl
  · split <;> rfl

/-- The offsets of the guarded registers, as rule R56 lists them. -/
theorem regAt_guarded {off : Nat} (h : off = 0x010 ∨ off = 0x014 ∨ (0x100 ≤ off ∧ off < 0x420)) :
    (regAt off).guarded = true := by
  obtain rfl | rfl | ⟨hlo, hhi⟩ := h
  · rfl
  · rfl
  · exact regAt_data_guarded hlo hhi

/-- The offsets of the read-only and the reserved registers. -/
theorem regAt_readOnly {off : Nat} (h : off = 0x000 ∨ off = 0x004 ∨ (0x018 ≤ off ∧ off < 0x100) ∨ 0x420 ≤ off) :
    (regAt off).readOnly = true := by
  obtain rfl | rfl | ⟨hlo, hhi⟩ | hlo := h
  · rfl
  · rfl
  · rw [regAt_low_reserved hlo hhi]
    rfl
  · exact regAt_high_readOnly hlo

/-- Rule R20: CTRL without bit 31, busy or idle. -/
theorem hostCtrl_of_not_srst {v : Word} (hv : v.getLsbD 31 = false) (s : State) :
    s.hostCtrl v = { s with ie := v.getLsbD 0, nsrc := v.getLsbD 1 } :=
  if_neg (Bool.eq_false_iff.mp hv)

/-- Rule R116: CTRL with bit 31, busy or idle. -/
theorem hostCtrl_of_srst {v : Word} (hv : v.getLsbD 31 = true) (s : State) : s.hostCtrl v = s.softReset :=
  if_pos hv

/-- A served read answers the word at its offset and changes nothing else. -/
theorem step_readEvent {s : State} {off : Nat} {rest : List Event} (hal : off % 4 = 0) (hoff : off < 4096)
    (hin : s.inbox = readEvent off :: rest) (hr : s.inReset = false) :
    step s = .next { s with inbox := rest, resp := some (s.busRead off) } := by
  have served : step s = offsetAccess { s with inbox := rest } off 4 none := by
    simp [step, hin, readEvent, eventStep, busAccess, addrAccess, hoff, hr]
  rw [served]
  simp only [offsetAccess, hal, ne_eq, not_true_eq_false, if_false]
  rfl

/-- Settles O10: each offset falls on a guarded register, a read-only one, CTRL or STATUS. -/
theorem busyWritesAreDropped : Obligations.BusyWritesAreDropped := by
  unfold Obligations.BusyWritesAreDropped
  intro s off v hb hal hoff
  refine ⟨?data, ?readOnly, ?ctrl, ?srst, ?status, ?read⟩
  case data => exact fun h => writeReg_of_guarded hb (regAt_guarded h) v
  case readOnly => exact fun h => writeReg_of_readOnly (regAt_readOnly h) s v
  case ctrl =>
    rintro rfl hv
    exact hostCtrl_of_not_srst hv s
  case srst =>
    rintro rfl hv
    exact hostCtrl_of_srst hv s
  case status =>
    rintro rfl
    rfl
  case read => exact fun rest hin hr => step_readEvent hal hoff hin hr

end Sys2Proof.Machine
end

section
/-! SUPPORT. A commit that stages one field register (rules R9, R58), and the commands that end with one and no error (rules
R66 to R68). -/

namespace Sys2Proof.Machine

theorem activeModulus_pos (m : Modulus) : 0 < activeModulus m :=
  (Nat.zero_le _).trans_lt (activeModulus_bounds m).1

/-- A residue under either modulus fits a 256-bit register (rule R64). -/
theorem toNat_ofNat_of_lt_activeModulus {m : Modulus} {v : Nat} (hv : v < activeModulus m) :
    (BitVec.ofNat 256 v).toNat = v := by
  rw [BitVec.toNat_ofNat, Nat.mod_eq_of_lt (hv.trans (activeModulus_bounds m).2)]

/-- The register file after such a commit: the destination alone is replaced. -/
theorem commit_stageF_f (s : State) (rd : FReg) (v : Nat) :
    (s.commit (.ok (stageF rd v))).f = s.f.set rd.val (BitVec.ofNat 256 v) := rfl

/-- The destination holds the staged residue. -/
theorem commit_stageF_dest (s : State) (rd : FReg) {m : Modulus} {v : Nat} (hv : v < activeModulus m) :
    (s.commit (.ok (stageF rd v))).f[rd.val].toNat = v := by
  simp only [commit_stageF_f, Vector.getElem_set_self, toNat_ofNat_of_lt_activeModulus hv]

/-- The other field registers are unchanged. -/
theorem fieldsBut_commit_stageF (s : State) (rd : FReg) (v : Nat) :
    FieldsBut s (s.commit (.ok (stageF rd v))) [rd] := by
  intro i hi
  have hne : rd.val ≠ i.val := fun h => hi (List.mem_singleton.mpr (Fin.ext h.symm))
  simp only [commit_stageF_f, Vector.getElem_set_ne _ _ hne]

/-- Rule R58: everything else such a commit leaves. -/
theorem commandFrame_commit_stageF (s : State) (rd : FReg) (v : Nat) :
    CommandFrame s (s.commit (.ok (stageF rd v))) none [rd] [] :=
  ⟨commitControl_commit s (.ok (stageF rd v)), ⟨rfl, rfl⟩, rfl, fieldsBut_commit_stageF s rd v,
    pointsBut_of_eq rfl rfl rfl []⟩

/-- Settles O26: a residue is staged for the destination. -/
theorem faddCompletes : Obligations.FaddCompletes := by
  unfold Obligations.FaddCompletes
  intro m rd ra rb s
  exact ⟨_, rfl, commit_stageF_dest s rd (Nat.mod_lt _ (activeModulus_pos m)), commandFrame_commit_stageF s rd _⟩

/-- Settles O27: `imod` stages the residue of the integer difference, which is not negative. -/
theorem fsubCompletes : Obligations.FsubCompletes := by
  unfold Obligations.FsubCompletes
  intro m rd ra rb s
  have hm : 0 < activeModulus m := activeModulus_pos m
  refine ⟨_, rfl, ?_, commandFrame_commit_stageF s rd _⟩
  rw [commit_stageF_dest s rd (imod_lt _ hm), imod_cast _ hm]
  rfl

/-- Settles O28: a residue of the exact product is staged for the destination. -/
theorem fmulCompletes : Obligations.FmulCompletes := by
  unfold Obligations.FmulCompletes
  intro m rd ra rb s
  exact ⟨_, rfl, commit_stageF_dest s rd (Nat.mod_lt _ (activeModulus_pos m)), commandFrame_commit_stageF s rd _⟩

end Sys2Proof.Machine
end

section
/-! SUPPORT. The group law as relations (rules R72, R73): `ecDbl` and `ecAdd` answer on all reduced point values, on the curve
or off it (rule R76), and what they answer is the double or the sum. -/

namespace Sys2Proof.Machine

variable {c : Curve}

/-- `d` is the double of `q`, by the cases of rule R72. -/
def IsDouble (c : Curve) (q d : Point) : Prop :=
  (q = .inf → d = .inf) ∧ (∀ x, q = .aff x 0 → d = .inf) ∧ ∀ x y, q = .aff x y → y ≠ 0 → TangentPoint c x y d

/-- `a` is the sum of `q` and `r`, by the cases of rule R73 in their order. -/
def IsSum (c : Curve) (q r a : Point) : Prop :=
  (q = .inf → a = r) ∧ (∀ x1 y1, q = .aff x1 y1 → r = .inf → a = .aff x1 y1) ∧
    ∀ x1 y1 x2 y2, q = .aff x1 y1 → r = .aff x2 y2 →
      (x1 = x2 → y1 ≠ y2 ∨ y1 = 0 → a = .inf) ∧
        (x1 = x2 → y1 = y2 → y1 ≠ 0 → TangentPoint c x1 y1 a) ∧
        (x1 ≠ x2 → ChordPoint c x1 y1 x2 y2 a)

/-- Rule R65: away from the multiples of a prime modulus `inv` answers an inverse. -/
theorem exists_inv {x m : Nat} (hm : m.Prime) (hx : x % m ≠ 0) : ∃ i, inv x m = .ok i ∧ i < m ∧ x * i % m = 1 :=
  have h := inv_ok x m hm.pos hx
  ⟨_, h, inv_spec hm h⟩

/-- The last two lines of rules R72 and R73. -/
theorem onLine_imod (hp : 0 < c.p) (lam x1 y1 x2 : Nat) :
    let x3 := imod ((lam : Int) ^ 2 - (x1 : Int) - (x2 : Int)) c.p
    OnLine c lam x1 y1 x2 (.aff x3 (imod ((lam : Int) * ((x1 : Int) - (x3 : Int)) - (y1 : Int)) c.p)) :=
  ⟨_, _, rfl, imod_lt _ hp, imod_lt _ hp, imod_modEq _ hp, imod_modEq _ hp⟩

theorem reduced_of_onLine {lam x1 y1 x2 : Nat} {q : Point} (h : OnLine c lam x1 y1 x2 q) : Reduced c q := by
  obtain ⟨x3, y3, rfl, hx3, hy3, -⟩ := h
  exact ⟨hx3, hy3⟩

theorem reduced_of_tangentPoint {x y : Nat} {q : Point} (h : TangentPoint c x y q) : Reduced c q := by
  obtain ⟨i, lam, -, -, -, hline⟩ := h
  exact reduced_of_onLine hline

theorem reduced_of_chordPoint {x1 y1 x2 y2 : Nat} {q : Point} (h : ChordPoint c x1 y1 x2 y2 q) : Reduced c q := by
  obtain ⟨i, lam, -, -, -, -, hline⟩ := h
  exact reduced_of_onLine hline

/-- What a double can be. -/
theorem isDouble_cases {q d : Point} (h : IsDouble c q d) : d = .inf ∨ ∃ x y, q = .aff x y ∧ TangentPoint c x y d := by
  obtain ⟨hinf, hzero, htangent⟩ := h
  cases q with
  | inf => exact .inl (hinf rfl)
  | aff x y =>
    by_cases hy : y = 0
    · exact .inl (hzero x (by rw [hy]))
    · exact .inr ⟨x, y, rfl, htangent x y rfl hy⟩

/-- What a sum can be. -/
theorem isSum_cases {q r a : Point} (h : IsSum c q r a) :
    a = .inf ∨ a = q ∨ a = r ∨ (∃ x y, q = .aff x y ∧ TangentPoint c x y a) ∨
      ∃ x1 y1 x2 y2, q = .aff x1 y1 ∧ r = .aff x2 y2 ∧ ChordPoint c x1 y1 x2 y2 a := by
  obtain ⟨hleft, hright, haff⟩ := h
  cases q with
  | inf => exact .inr (.inr (.inl (hleft rfl)))
  | aff x1 y1 =>
    cases r with
    | inf => exact .inr (.inl (hright x1 y1 rfl rfl))
    | aff x2 y2 =>
      obtain ⟨hinf, htangent, hchord⟩ := haff x1 y1 x2 y2 rfl rfl
      by_cases hx : x1 = x2
      · by_cases hy : y1 ≠ y2 ∨ y1 = 0
        · exact .inl (hinf hx hy)
        · exact .inr (.inr (.inr (.inl ⟨x1, y1, rfl, htangent hx (by omega) (by omega)⟩)))
      · exact .inr (.inr (.inr (.inr ⟨x1, y1, x2, y2, rfl, rfl, hchord hx⟩)))

theorem reduced_of_isDouble {q d : Point} (h : IsDouble c q d) : Reduced c d := by
  obtain rfl | ⟨x, y, -, ht⟩ := isDouble_cases h
  · trivial
  · exact reduced_of_tangentPoint ht

theorem reduced_of_isSum {q r a : Point} (hq : Reduced c q) (hr : Reduced c r) (h : IsSum c q r a) : Reduced c a := by
  obtain rfl | rfl | rfl | ⟨x, y, -, ht⟩ | ⟨x1, y1, x2, y2, -, -, hc⟩ := isSum_cases h
  · trivial
  · exact hq
  · exact hr
  · exact reduced_of_tangentPoint ht
  · exact reduced_of_chordPoint hc

/-- Rule R76: 2·y is not 0 modulo an odd prime where y is not. -/
theorem two_mul_mod_ne_zero {p y : Nat} (hp : p.Prime) (h2 : p ≠ 2) (hy0 : y ≠ 0) (hy : y < p) : 2 * y % p ≠ 0 := by
  intro h
  rcases (Nat.Prime.dvd_mul hp).1 (Nat.dvd_of_mod_eq_zero h) with hd | hd
  · exact h2 ((Nat.prime_dvd_prime_iff_eq hp Nat.prime_two).1 hd)
  · exact hy0 (Nat.eq_zero_of_dvd_of_lt hd hy)

/-- Rule R76: the difference of two abscissae in [0, p) is 0 modulo p only where they are equal. -/
theorem imod_sub_mod_ne_zero {p x1 x2 : Nat} (hx1 : x1 < p) (hx2 : x2 < p) (hne : x1 ≠ x2) :
    imod ((x2 : Int) - (x1 : Int)) p % p ≠ 0 := by
  intro h
  have hp : 0 < p := by omega
  rw [Nat.mod_eq_of_lt (imod_lt _ hp)] at h
  have hd : (x1 : Int) ≡ (x2 : Int) [ZMOD p] := by
    rw [Int.modEq_iff_dvd, Int.dvd_iff_emod_eq_zero, ← imod_cast _ hp, h, Nat.cast_zero]
  exact hne (((Int.natCast_modEq_iff).1 hd).eq_of_lt_of_lt hx1 hx2)

/-- Rule R72 with y not 0: the tangent's point. -/
theorem ecDbl_tangent (hp : c.p.Prime) (h2 : c.p ≠ 2) {x y : Nat} (hy : y < c.p) (hy0 : y ≠ 0) :
    ∃ d, ecDbl c (.aff x y) = .ok d ∧ TangentPoint c x y d := by
  obtain ⟨i, hi, hilt, hinv⟩ := exists_inv hp (two_mul_mod_ne_zero hp h2 hy0 hy)
  refine ⟨_, ?_, i, _, hilt, hinv, rfl, onLine_imod hp.pos _ x y x⟩
  simp only [ecDbl, if_neg hy0, hi, sub_sub, ← two_mul]

/-- Rule R73 with different abscissae: the chord's point. -/
theorem ecAdd_chord (hp : c.p.Prime) {x1 y1 x2 y2 : Nat} (hx1 : x1 < c.p) (hx2 : x2 < c.p) (hne : x1 ≠ x2) :
    ∃ a, ecAdd c (.aff x1 y1) (.aff x2 y2) = .ok a ∧ ChordPoint c x1 y1 x2 y2 a := by
  obtain ⟨i, hi, hilt, hinv⟩ := exists_inv hp (imod_sub_mod_ne_zero hx1 hx2 hne)
  have hinv' : ((x2 : Int) - (x1 : Int)) * (i : Int) ≡ 1 [ZMOD c.p] :=
    calc ((x2 : Int) - (x1 : Int)) * (i : Int)
        ≡ (imod ((x2 : Int) - (x1 : Int)) c.p : Int) * (i : Int) [ZMOD c.p] := (imod_modEq _ hp.pos).symm.mul_right _
      _ = ((imod ((x2 : Int) - (x1 : Int)) c.p * i : Nat) : Int) := (Nat.cast_mul _ _).symm
      _ ≡ ((1 : Nat) : Int) [ZMOD c.p] := Int.natCast_modEq_iff.2 (hinv.trans (Nat.mod_eq_of_lt hp.one_lt).symm)
  refine ⟨_, ?_, i, _, hilt, hinv', imod_lt _ hp.pos, imod_modEq _ hp.pos, onLine_imod hp.pos _ x1 y1 x2⟩
  simp only [ecAdd, hne, false_and, if_false, hi]

/-- Rules R72, R76: `ecDbl` answers the double of every reduced point value. -/
theorem ecDbl_isDouble (hp : c.p.Prime) (h2 : c.p ≠ 2) {q : Point} (hq : Reduced c q) :
    ∃ d, ecDbl c q = .ok d ∧ IsDouble c q d := by
  cases q with
  | inf => exact ⟨.inf, rfl, fun _ => rfl, nofun, nofun⟩
  | aff x y =>
    by_cases hy0 : y = 0
    · refine ⟨.inf, by simp [ecDbl, hy0], nofun, fun _ _ => rfl, ?_⟩
      rintro _ _ ⟨⟩ hy
      exact absurd hy0 hy
    · obtain ⟨d, hd, ht⟩ := ecDbl_tangent hp h2 (x := x) hq.2 hy0
      refine ⟨d, hd, nofun, ?_, ?_⟩
      · rintro _ ⟨⟩
        exact absurd rfl hy0
      · rintro _ _ ⟨⟩ _
        exact ht

/-- Rules R73, R76: `ecAdd` answers the sum of every two reduced point values. -/
theorem ecAdd_isSum (hp : c.p.Prime) (h2 : c.p ≠ 2) {q r : Point} (hq : Reduced c q) (hr : Reduced c r) :
    ∃ a, ecAdd c q r = .ok a ∧ IsSum c q r a := by
  cases q with
  | inf => exact ⟨r, rfl, fun _ => rfl, nofun, nofun⟩
  | aff x1 y1 =>
    cases r with
    | inf => exact ⟨.aff x1 y1, rfl, nofun, fun _ _ h _ => h, nofun⟩
    | aff x2 y2 =>
      suffices h : ∃ a, ecAdd c (.aff x1 y1) (.aff x2 y2) = .ok a ∧ (x1 = x2 → y1 ≠ y2 ∨ y1 = 0 → a = .inf) ∧
          (x1 = x2 → y1 = y2 → y1 ≠ 0 → TangentPoint c x1 y1 a) ∧ (x1 ≠ x2 → ChordPoint c x1 y1 x2 y2 a) by
        obtain ⟨a, ha, hcases⟩ := h
        refine ⟨a, ha, nofun, nofun, ?_⟩
        rintro _ _ _ _ ⟨⟩ ⟨⟩
        exact hcases
      by_cases hx : x1 = x2
      · by_cases hy : y1 ≠ y2 ∨ y1 = 0
        · exact ⟨.inf, by simp only [ecAdd, if_pos (And.intro hx hy)], fun _ _ => rfl, by omega, fun h => absurd hx h⟩
        · have hyy : y1 = y2 := by omega
          obtain ⟨d, hd, ht⟩ := ecDbl_tangent hp h2 (x := x1) hq.2 (show y1 ≠ 0 by omega)
          refine ⟨d, ?_, fun _ h => absurd h hy, fun _ _ _ => ht, fun h => absurd hx h⟩
          rw [← hd]
          simp only [ecAdd, hy, and_false, if_false, if_pos (And.intro hx hyy)]
      · obtain ⟨a, ha, hc⟩ := ecAdd_chord hp (y1 := y1) (y2 := y2) hq.1 hr.1 hx
        exact ⟨a, ha, fun h => absurd h hx, fun h => absurd h hx, fun _ => hc⟩

end Sys2Proof.Machine
end

section
/-! SUPPORT. Closure of the group law on the curve (rule R78): one computation for the third point of a line, which the tangent
and the chord share. -/

namespace Sys2Proof.Machine

variable {c : Curve}

/-- Rule R74 without the subtraction. -/
theorem onCurve_aff_iff (hp : 0 < c.p) (x y : Nat) :
    onCurve c (.aff x y) = true ↔ y ^ 2 ≡ x ^ 3 + c.a * x + c.b [MOD c.p] := by
  rw [onCurve, beq_iff_eq, ← Int.natCast_inj, imod_cast _ hp, Nat.cast_zero, ← Int.dvd_iff_emod_eq_zero,
    ← Int.modEq_iff_dvd, Nat.ModEq.comm, ← Int.natCast_modEq_iff]
  push_cast
  rfl

/-- The curve equation in the field. -/
theorem onCurve_aff_iff_zmod (hp : 0 < c.p) (x y : Nat) :
    onCurve c (.aff x y) = true ↔ (y : ZMod c.p) ^ 2 = x ^ 3 + c.a * x + c.b := by
  rw [onCurve_aff_iff hp, ← ZMod.natCast_eq_natCast_iff]
  push_cast
  rfl

/-- A line of slope `l` through (x1, y1) of the cubic that meets it at the abscissa x2 again meets it a third time at
l² − x1 − x2; `hl` is the condition on x2, the line's equation put into the cubic's and divided by x2 − x1. -/
theorem third_point_on_cubic {R : Type*} [CommRing R] {a b l x1 y1 x2 x3 y3 : R}
    (h1 : y1 ^ 2 = x1 ^ 3 + a * x1 + b)
    (hl : 2 * y1 * l + l ^ 2 * (x2 - x1) = x1 ^ 2 + x1 * x2 + x2 ^ 2 + a)
    (hx3 : x3 = l ^ 2 - x1 - x2) (hy3 : y3 = l * (x1 - x3) - y1) : y3 ^ 2 = x3 ^ 3 + a * x3 + b := by
  subst hy3
  linear_combination h1 + (x3 - x1) * hl - (x3 - x1) * (x3 - x2) * hx3

theorem onCurve_of_onLine (hp : 0 < c.p) {lam x1 y1 x2 : Nat} {q : Point}
    (h1 : onCurve c (.aff x1 y1) = true)
    (hl : 2 * (y1 : ZMod c.p) * lam + lam ^ 2 * (x2 - x1) = x1 ^ 2 + x1 * x2 + x2 ^ 2 + c.a)
    (h : OnLine c lam x1 y1 x2 q) : onCurve c q = true := by
  obtain ⟨x3, y3, rfl, -, -, hx3, hy3⟩ := h
  rw [onCurve_aff_iff_zmod hp] at h1 ⊢
  have hx3' := (ZMod.intCast_eq_intCast_iff _ _ _).2 hx3
  have hy3' := (ZMod.intCast_eq_intCast_iff _ _ _).2 hy3
  push_cast at hx3' hy3'
  exact third_point_on_cubic h1 hl hx3' hy3'

/-- A residue equation of rule R72 in the field. -/
theorem natCast_zmod_of_mod_eq {p u v : Nat} (h : u % p = v) : (u : ZMod p) = v := by
  rw [← h, ZMod.natCast_mod]

theorem onCurve_of_tangentPoint (hp : 0 < c.p) {x y : Nat} {q : Point} (h1 : onCurve c (.aff x y) = true)
    (h : TangentPoint c x y q) : onCurve c q = true := by
  obtain ⟨i, lam, -, hi, hlam, hline⟩ := h
  refine onCurve_of_onLine hp h1 ?_ hline
  have hi' := natCast_zmod_of_mod_eq hi
  have hlam' := natCast_zmod_of_mod_eq hlam.symm
  push_cast at hi' hlam'
  linear_combination (3 * (x : ZMod c.p) ^ 2 + c.a) * hi' - 2 * y * hlam'

theorem onCurve_of_chordPoint (hp : 0 < c.p) {x1 y1 x2 y2 : Nat} {q : Point}
    (h1 : onCurve c (.aff x1 y1) = true) (h2 : onCurve c (.aff x2 y2) = true) (h : ChordPoint c x1 y1 x2 y2 q) :
    onCurve c q = true := by
  obtain ⟨i, lam, -, hi, -, hlam, hline⟩ := h
  refine onCurve_of_onLine hp h1 ?_ hline
  rw [onCurve_aff_iff_zmod hp] at h1 h2
  have hi' := (ZMod.intCast_eq_intCast_iff _ _ _).2 hi
  have hlam' := (ZMod.intCast_eq_intCast_iff _ _ _).2 hlam
  push_cast at hi' hlam'
  have hrise : (lam : ZMod c.p) * (x2 - x1) = y2 - y1 := by
    linear_combination (x2 - x1 : ZMod c.p) * hlam' + (y2 - y1 : ZMod c.p) * hi'
  -- The two curve equations, subtracted, are x2 − x1 times the goal; `i` cancels that factor.
  have hscaled : ((x2 : ZMod c.p) - x1) *
      (2 * (y1 : ZMod c.p) * lam + lam ^ 2 * (x2 - x1) - (x1 ^ 2 + x1 * x2 + x2 ^ 2 + c.a)) = 0 := by
    linear_combination h2 - h1 + (y1 + y2 + lam * (x2 - x1) : ZMod c.p) * hrise
  linear_combination (i : ZMod c.p) * hscaled -
    (2 * (y1 : ZMod c.p) * lam + lam ^ 2 * (x2 - x1) - (x1 ^ 2 + x1 * x2 + x2 ^ 2 + c.a)) * hi'

theorem onCurve_of_isDouble (hp : 0 < c.p) {q d : Point} (hq : onCurve c q = true) (h : IsDouble c q d) :
    onCurve c d = true := by
  obtain rfl | ⟨x, y, rfl, ht⟩ := isDouble_cases h
  · rfl
  · exact onCurve_of_tangentPoint hp hq ht

theorem onCurve_of_isSum (hp : 0 < c.p) {q r a : Point} (hq : onCurve c q = true) (hr : onCurve c r = true)
    (h : IsSum c q r a) : onCurve c a = true := by
  obtain rfl | rfl | rfl | ⟨x, y, rfl, ht⟩ | ⟨x1, y1, x2, y2, rfl, rfl, hc⟩ := isSum_cases h
  · rfl
  · exact hq
  · exact hr
  · exact onCurve_of_tangentPoint hp hq ht
  · exact onCurve_of_chordPoint hp hq hr hc

theorem p_ne_two : Config.curve.p ≠ 2 := by decide

/-- Settles O39: what `ecDbl` and `ecAdd` answer is the double and the sum, and both are on the curve. -/
theorem groupLawStaysOnTheCurve : Obligations.GroupLawStaysOnTheCurve := by
  unfold Obligations.GroupLawStaysOnTheCurve
  intro q r d a hq hr hqc hrc hd ha
  obtain ⟨d', hd', hdouble⟩ := ecDbl_isDouble p_prime p_ne_two hq
  obtain ⟨a', ha', hsum⟩ := ecAdd_isSum p_prime p_ne_two hq hr
  obtain rfl : d' = d := Except.ok.inj (hd'.symm.trans hd)
  obtain rfl : a' = a := Except.ok.inj (ha'.symm.trans ha)
  exact ⟨onCurve_of_isDouble p_prime.pos hqc hdouble, onCurve_of_isSum p_prime.pos hqc hrc hsum⟩

end Sys2Proof.Machine
end

section
/-! SUPPORT. A commit that stages one point register (rules R16, R58), and the commands that end with one (rules R80, R81). -/

namespace Sys2Proof.Machine

/-- Rule R15: a point register reads a reduced value. -/
theorem reduced_readP (s : State) (j : PReg) : Reduced Config.curve (s.readP j) := by
  cases h : s.readP j with
  | inf => trivial
  | aff x y => exact readP_lt h

/-- The other point registers are unchanged. -/
theorem pointsBut_writeP (s : State) (j : PReg) (q : Point) : PointsBut s (s.writeP j q) [j] := by
  intro i hi
  have hne : j.val ≠ i.val := fun h => hi (List.mem_singleton.mpr (Fin.ext h.symm))
  cases q <;> simp [Vector.getElem_set_ne _ _ hne]

/-- The destination holds the staged value. -/
theorem holdsPoint_commit_stageP (s : State) (j : PReg) {q : Point} (hq : Reduced Config.curve q) :
    HoldsPoint (s.commit (.ok (stageP j q))) j q :=
  holdsPoint_writeP s j hq

/-- Rule R58: everything else such a commit leaves. -/
theorem commandFrame_commit_stageP (s : State) (j : PReg) (q : Point) :
    CommandFrame s (s.commit (.ok (stageP j q))) none [] [j] :=
  ⟨commitControl_commit s (.ok (stageP j q)), by simp [KeepsFlags, stageP], by simp,
    fieldsBut_of_eq (writeP_f s j q) [], pointsBut_writeP s j q⟩

/-- Rules R57, R58: a point command whose result is a point value. -/
theorem commitNext_pointResult (s : State) (j : PReg) {r : Except CmdError Point} {q : Point} (hr : r = .ok q) :
    commitNext s (pointResult j r) = .next (s.commit (.ok (stageP j q))) := by
  subst hr
  rfl

/-- Settles O33: the double of the source is staged for the destination. -/
theorem pdblCompletes : Obligations.PdblCompletes := by
  unfold Obligations.PdblCompletes
  intro rd ra s
  obtain ⟨d, hd, hdouble⟩ := ecDbl_isDouble p_prime p_ne_two (reduced_readP s ra)
  exact ⟨_, d, commitNext_pointResult s rd hd, holdsPoint_commit_stageP s rd (reduced_of_isDouble hdouble),
    commandFrame_commit_stageP s rd d, hdouble⟩

/-- Settles O34: the sum of the sources is staged for the destination. -/
theorem paddCompletes : Obligations.PaddCompletes := by
  unfold Obligations.PaddCompletes
  intro rd ra rb s
  have hq := reduced_readP s ra
  have hr := reduced_readP s rb
  obtain ⟨a, ha, hsum⟩ := ecAdd_isSum p_prime p_ne_two hq hr
  exact ⟨_, a, commitNext_pointResult s rd ha, holdsPoint_commit_stageP s rd (reduced_of_isSum hq hr hsum),
    commandFrame_commit_stageP s rd a, hsum⟩

end Sys2Proof.Machine
end

section
/-! SUPPORT. The commands that write a result flag (rules R82, R83): what the point predicates say of the registers. -/

namespace Sys2Proof.Machine

/-- Rule R74 on a register's value: the curve equation does not see the reduction of rule R15. -/
theorem onCurve_readP_iff (s : State) (j : PReg) :
    onCurve Config.curve (s.readP j) = true ↔ s.inf[j.val] = true ∨
      s.y[j.val].toNat ^ 2 ≡ s.x[j.val].toNat ^ 3 + 7 [MOD Config.curve.p] := by
  cases hinf : s.inf[j.val] with
  | true => simp [readP_of_inf hinf, onCurve]
  | false =>
    have hy := (Nat.mod_modEq s.y[j.val].toNat Config.curve.p).pow 2
    have hx := ((Nat.mod_modEq s.x[j.val].toNat Config.curve.p).pow 3).add_right 7
    have ha : Config.curve.a = 0 := rfl
    have hb : Config.curve.b = 7 := rfl
    rw [readP_of_not_inf hinf, onCurve_aff_iff p_prime.pos, ha, hb, zero_mul, add_zero]
    simp only [Bool.false_eq_true, false_or]
    exact ⟨fun h => hy.symm.trans (h.trans hx), fun h => hy.trans (h.trans hx.symm)⟩

/-- Rule R75: `ptEq` decides equality. -/
theorem ptEq_iff (q r : Point) : ptEq q r = true ↔ q = r := by
  cases q <;> cases r <;> simp [ptEq]

/-- When two registers read the same value (rule R15). -/
theorem readP_eq_readP_iff (s : State) (i j : PReg) :
    s.readP i = s.readP j ↔ (s.inf[i.val] = true ∧ s.inf[j.val] = true) ∨
      (s.inf[i.val] = false ∧ s.inf[j.val] = false ∧ s.x[i.val].toNat ≡ s.x[j.val].toNat [MOD Config.curve.p] ∧
        s.y[i.val].toNat ≡ s.y[j.val].toNat [MOD Config.curve.p]) := by
  cases hi : s.inf[i.val] <;> cases hj : s.inf[j.val] <;>
    simp [readP_of_inf, readP_of_not_inf, hi, hj, Nat.ModEq]

/-- Settles O35: the commit stages the flag alone. -/
theorem pchkCompletes : Obligations.PchkCompletes := by
  unfold Obligations.PchkCompletes
  intro ra s
  exact ⟨_, rfl, onCurve_readP_iff s ra, rfl, rfl, commitControl_commit s (.ok _), fieldsBut_of_eq rfl [],
    pointsBut_of_eq rfl rfl rfl []⟩

/-- Settles O36: the commit stages the flag alone. -/
theorem peqCompletes : Obligations.PeqCompletes := by
  unfold Obligations.PeqCompletes
  intro ra rb s
  exact ⟨_, rfl, (ptEq_iff _ _).trans (readP_eq_readP_iff s ra rb), rfl, rfl, commitControl_commit s (.ok _),
    fieldsBut_of_eq rfl [], pointsBut_of_eq rfl rfl rfl []⟩

end Sys2Proof.Machine
end

section
/-! SUPPORT. Scalar multiplication (rule R86) answers a point value wherever doubling and adding do (rules R76, R88 (b)), and the
command that ends with one (rule R89). -/

namespace Sys2Proof.Machine

variable {c : Curve} {q acc : Point}

/-- One bit of rule R86 on reduced point values. -/
theorem ecMulStep_reduced (hp : c.p.Prime) (h2 : c.p ≠ 2) (hq : Reduced c q) (hacc : Reduced c acc) (bit : Bool) :
    ∃ a, ecMulStep c q bit acc = .ok a ∧ Reduced c a := by
  obtain ⟨d, hd, hdouble⟩ := ecDbl_isDouble hp h2 hacc
  have hdred : Reduced c d := reduced_of_isDouble hdouble
  cases bit with
  | false => exact ⟨d, by simp [ecMulStep, hd], hdred⟩
  | true =>
    obtain ⟨a, ha, hsum⟩ := ecAdd_isSum hp h2 hdred hq
    exact ⟨a, by simp [ecMulStep, hd, ha], reduced_of_isSum hdred hq hsum⟩

/-- The bits left, from any reduced accumulator. -/
theorem ecMulLoop_reduced (hp : c.p.Prime) (h2 : c.p ≠ 2) (hq : Reduced c q) (k i : Nat) (hacc : Reduced c acc) :
    ∃ u, ecMulLoop c k q i acc = .ok u ∧ Reduced c u := by
  induction i generalizing acc with
  | zero => exact ⟨acc, rfl, hacc⟩
  | succ i ih =>
    obtain ⟨a, ha, hared⟩ := ecMulStep_reduced hp h2 hq hacc (k.testBit i)
    obtain ⟨u, hu, hured⟩ := ih hared
    exact ⟨u, by simp [ecMulLoop, ha, hu], hured⟩

/-- Rule R88 (b): a multiple of a reduced point value is a reduced point value. -/
theorem ecMul_reduced (hp : c.p.Prime) (h2 : c.p ≠ 2) (hq : Reduced c q) (k : Nat) :
    ∃ u, ecMul c k q = .ok u ∧ Reduced c u :=
  ecMulLoop_reduced hp h2 hq k (Nat.log2 k) hq

/-- Rule R85: the range check passes a valid scalar. -/
theorem checkedMul_of_valid {k : Nat} (hlo : 1 ≤ k) (hhi : k < c.n) (q : Point) : checkedMul c k q = ecMul c k q :=
  if_pos ((validScalar_iff c k).2 ⟨hlo, hhi⟩)

/-- Settles O42: the multiple of the point register is staged for the destination. -/
theorem smulCompletes : Obligations.SmulCompletes := by
  unfold Obligations.SmulCompletes
  intro rd ra rb s hlo hhi
  obtain ⟨u, hu, hured⟩ := ecMul_reduced p_prime p_ne_two (reduced_readP s rb) s.f[ra.val].toNat
  have hchecked := (checkedMul_of_valid hlo hhi (s.readP rb)).trans hu
  exact ⟨_, u, hu, commitNext_pointResult s rd hchecked, holdsPoint_commit_stageP s rd hured,
    commandFrame_commit_stageP s rd u⟩

end Sys2Proof.Machine
end

section
/-! SUPPORT. What one step can do, over the state that the event taken leaves (rules R40, R54). -/

namespace Sys2Proof.Machine

/-- The state once the next event, where there is one, is taken out of `inbox`. -/
def State.taken (s : State) : State := { s with inbox := s.inbox.tail }

@[simp] theorem taken_f (s : State) : s.taken.f = s.f := rfl
@[simp] theorem taken_x (s : State) : s.taken.x = s.x := rfl
@[simp] theorem taken_y (s : State) : s.taken.y = s.y := rfl
@[simp] theorem taken_inf (s : State) : s.taken.inf = s.inf := rfl
@[simp] theorem taken_nonce (s : State) : s.taken.nonce = s.nonce := rfl
@[simp] theorem taken_busy (s : State) : s.taken.busy = s.busy := rfl
@[simp] theorem taken_done (s : State) : s.taken.done = s.done := rfl
@[simp] theorem taken_err (s : State) : s.taken.err = s.err := rfl
@[simp] theorem taken_cmdLast (s : State) : s.taken.cmdLast = s.cmdLast := rfl
@[simp] theorem taken_lcmd (s : State) : s.taken.lcmd = s.lcmd := rfl
@[simp] theorem taken_lnsrc (s : State) : s.taken.lnsrc = s.lnsrc := rfl
@[simp] theorem taken_draws (s : State) : s.taken.draws = s.draws := rfl
@[simp] theorem taken_inReset (s : State) : s.taken.inReset = s.inReset := rfl
@[simp] theorem taken_inbox (s : State) : s.taken.inbox = s.inbox.tail := rfl
@[simp] theorem taken_resp (s : State) : s.taken.resp = s.resp := rfl

theorem taken_of_empty {s : State} (h : s.inbox = []) : s.taken = s := by
  cases s
  subst h
  rfl

theorem taken_of_cons {s : State} {e : Event} {rest : List Event} (h : s.inbox = e :: rest) :
    s.taken = { s with inbox := rest } := by
  simp [State.taken, h]

theorem step_of_empty {s : State} (h : s.inbox = []) : step s = engineStep s := by
  simp [step, h]

theorem step_of_cons {s : State} {e : Event} {rest : List Event} (h : s.inbox = e :: rest) :
    step s = eventStep e s.taken := by
  simp [step, h, taken_of_cons h]

/-- The step is the engine's turn (log entries 1 and 2). -/
def EngineTurn (s : State) : Prop := s.inbox = [] ∨ ∃ rest, s.inbox = .engine :: rest

/-- An access that reaches a block in reset is not served (rule R115); else it is a read or a write at an aligned offset (rules
R36 to R39). -/
inductive Served (u : State) : Access → State → Prop
  | notServed (a : Access) : u.inReset = true → Served u a { u with resp := none }
  | read (off : Nat) : u.inReset = false → off % 4 = 0 →
      Served u (.read (Config.base + off) 4) { u with resp := some (u.busRead off) }
  | write (off : Nat) (v : Word) : u.inReset = false → off % 4 = 0 →
      Served u (.write (Config.base + off) 4 v) { u.busWrite off v with resp := none }

/-- What a step that gives a next state was. -/
inductive Stepped (s : State) : State → Prop
  | engine {t : State} : EngineTurn s → engineStep s.taken = .next t → Stepped s t
  | access {a : Access} {rest : List Event} {t : State} : s.inbox = .access a :: rest → Served s.taken a t → Stepped s t
  | candidate (w : Wide) : s.inReset = false → Stepped s (s.taken.offer w)
  | candidateInReset : s.inReset = true → Stepped s s.taken
  | resetPin (b : Bool) : Stepped s (s.taken.resetPin b)

theorem windowOffset_eq_some {addr off : Nat} (h : windowOffset addr = some off) : addr = Config.base + off := by
  unfold windowOffset at h
  split at h
  · injection h with h
    omega
  · cases h

theorem busAccess_served {u t : State} {a : Access} (h : busAccess a u = .next t) : Served u a t := by
  cases a with
  | read addr bytes =>
    obtain ⟨off, hoff, ⟨hr, rfl⟩ | ⟨hr, rfl, hal, ⟨-, rfl⟩ | ⟨v, hv, -⟩⟩⟩ := addrAccess_next h
    · exact .notServed _ hr
    · rw [windowOffset_eq_some hoff]
      exact .read off hr hal
    · cases hv
  | write addr bytes v =>
    obtain ⟨off, hoff, ⟨hr, rfl⟩ | ⟨hr, rfl, hal, ⟨hv, -⟩ | ⟨_, ⟨⟩, rfl⟩⟩⟩ := addrAccess_next h
    · exact .notServed _ hr
    · cases hv
    · rw [windowOffset_eq_some hoff]
      exact .write off v hr hal

theorem stepped_of_step {s t : State} (h : step s = .next t) : Stepped s t := by
  cases hin : s.inbox with
  | nil =>
    rw [step_of_empty hin, ← taken_of_empty hin] at h
    exact .engine (.inl hin) h
  | cons e rest =>
    rw [step_of_cons hin] at h
    cases e with
    | access a => exact .access hin (busAccess_served h)
    | engine => exact .engine (.inr ⟨rest, hin⟩) h
    | candidate w =>
      obtain rfl := Host.Outcome.next.inj h
      cases hr : s.inReset with
      | true => simpa [hr] using Stepped.candidateInReset hr
      | false => simpa [hr] using Stepped.candidate w hr
    | resetPin b =>
      obtain rfl := Host.Outcome.next.inj h
      exact .resetPin b

/-- Rule R56: an idle block takes the write. -/
theorem unlessBusy_of_idle {s : State} (hb : s.busy = false) (t : State) : s.unlessBusy t = t :=
  if_neg (Bool.eq_false_iff.1 hb)

/-- Rules R20, R116: a write to CTRL is a soft reset or sets IE and NSRC. -/
theorem writeReg_ctrl (s : State) (v : Word) :
    s.writeReg .ctrl v = s.softReset ∨ s.writeReg .ctrl v = { s with ie := v.getLsbD 0, nsrc := v.getLsbD 1 } := by
  cases hv : v.getLsbD 31 with
  | true => exact .inl (hostCtrl_of_srst hv s)
  | false => exact .inr (hostCtrl_of_not_srst hv s)

/-- A candidate changes nothing but the candidates drawn. -/
theorem offer_cases (s : State) (w : Wide) :
    (s.awaitsCandidate = true ∧ s.offer w = { s with draws := s.draws ++ [w] }) ∨
      (s.awaitsCandidate = false ∧ s.offer w = s) := by
  unfold State.offer
  cases s.awaitsCandidate with
  | true => exact .inl ⟨rfl, rfl⟩
  | false => exact .inr ⟨rfl, rfl⟩

/-- What the engine's turn leaves: nothing done, or a commit. -/
theorem engineStep_next {u t : State} (h : engineStep u = .next t) :
    t = u ∨ (u.inReset = false ∧ ((∃ r, t = u.commit r) ∨ ∃ r, t = u.commitSign r)) := by
  obtain ⟨hidle, -⟩ | ⟨-, hr, ⟨e, -, hill⟩ | ⟨i, -, hexec⟩⟩ := engineStep_cases u
  · exact .inl (Host.Outcome.next.inj (h.symm.trans hidle))
  · exact .inr ⟨hr, .inl ⟨_, Host.Outcome.next.inj (h.symm.trans hill)⟩⟩
  · rw [hexec] at h
    obtain ⟨r, hc⟩ | ⟨_, _, _, -, ⟨r, hc⟩ | hw⟩ := exec_cases i u
    · exact .inr ⟨hr, .inl ⟨r, Host.Outcome.next.inj (h.symm.trans hc)⟩⟩
    · exact .inr ⟨hr, .inr ⟨r, Host.Outcome.next.inj (h.symm.trans hc)⟩⟩
    · exact .inl (Host.Outcome.next.inj (h.symm.trans hw))

end Sys2Proof.Machine
end

section
/-! SUPPORT. What the pure functions of a command can end with on the shipped curve (rules R65, R72 to R78, R86, R92). -/

namespace Sys2Proof.Machine

theorem reduced_basePoint : Reduced Config.curve (basePoint Config.curve) := ⟨by decide, by decide⟩

theorem onCurve_basePoint : onCurve Config.curve (basePoint Config.curve) = true := by decide

section
variable {q r acc : Point}

/-- Rules R76, R78: doubling a reduced point value. -/
theorem ecDbl_ok (hq : Reduced Config.curve q) :
    ∃ d, ecDbl Config.curve q = .ok d ∧ Reduced Config.curve d ∧
      (onCurve Config.curve q = true → onCurve Config.curve d = true) := by
  obtain ⟨d, hd, hdouble⟩ := ecDbl_isDouble p_prime p_ne_two hq
  exact ⟨d, hd, reduced_of_isDouble hdouble, fun h => onCurve_of_isDouble p_prime.pos h hdouble⟩

/-- Rules R76, R78: adding reduced point values. -/
theorem ecAdd_ok (hq : Reduced Config.curve q) (hr : Reduced Config.curve r) :
    ∃ a, ecAdd Config.curve q r = .ok a ∧ Reduced Config.curve a ∧
      (onCurve Config.curve q = true → onCurve Config.curve r = true → onCurve Config.curve a = true) := by
  obtain ⟨a, ha, hsum⟩ := ecAdd_isSum p_prime p_ne_two hq hr
  exact ⟨a, ha, reduced_of_isSum hq hr hsum, fun h h' => onCurve_of_isSum p_prime.pos h h' hsum⟩

theorem onCurve_ecMulStep (hq : Reduced Config.curve q) (hacc : Reduced Config.curve acc)
    (hqc : onCurve Config.curve q = true) (haccc : onCurve Config.curve acc = true) {bit : Bool} {a : Point}
    (h : ecMulStep Config.curve q bit acc = .ok a) : onCurve Config.curve a = true := by
  obtain ⟨d, hd, hdred, hdc⟩ := ecDbl_ok hacc
  cases bit with
  | false =>
    obtain rfl : d = a := by simpa [ecMulStep, hd] using h
    exact hdc haccc
  | true =>
    obtain ⟨b, hb, -, hbc⟩ := ecAdd_ok hdred hq
    obtain rfl : b = a := by simpa [ecMulStep, hd, hb] using h
    exact hbc (hdc haccc) hqc

theorem onCurve_ecMulLoop (hq : Reduced Config.curve q) (hqc : onCurve Config.curve q = true) (k i : Nat)
    (hacc : Reduced Config.curve acc) (haccc : onCurve Config.curve acc = true) {u : Point}
    (h : ecMulLoop Config.curve k q i acc = .ok u) : onCurve Config.curve u = true := by
  induction i generalizing acc with
  | zero =>
    obtain rfl := Except.ok.inj h
    exact haccc
  | succ i ih =>
    obtain ⟨a, ha, hared⟩ := ecMulStep_reduced p_prime p_ne_two hq hacc (k.testBit i)
    rw [ecMulLoop, ha] at h
    exact ih hared (onCurve_ecMulStep hq hacc hqc haccc ha) h

/-- Rule R88 (b), (d): multiplying a reduced point value. -/
theorem ecMul_ok (hq : Reduced Config.curve q) (k : Nat) :
    ∃ u, ecMul Config.curve k q = .ok u ∧ Reduced Config.curve u ∧
      (onCurve Config.curve q = true → onCurve Config.curve u = true) := by
  obtain ⟨u, hu, hured⟩ := ecMul_reduced p_prime p_ne_two hq k
  exact ⟨u, hu, hured, fun hqc => onCurve_ecMulLoop hq hqc k _ hq hqc hu⟩

/-- Rules R85, R89, R90: the range check fails, or the multiple is computed. -/
theorem checkedMul_cases (hq : Reduced Config.curve q) (k : Nat) :
    checkedMul Config.curve k q = .error .invalidScalar ∨
      ∃ u, checkedMul Config.curve k q = .ok u ∧ Reduced Config.curve u ∧
        (onCurve Config.curve q = true → onCurve Config.curve u = true) := by
  unfold checkedMul
  split
  · exact .inr (ecMul_ok hq k)
  · exact .inl rfl

end

theorem activeModulus_prime (m : Modulus) : (activeModulus m).Prime := by
  cases m
  · exact p_prime
  · exact n_prime

/-- Rule R65: DIV_ZERO, or a residue. -/
theorem inv_cases (x : Nat) (m : Modulus) :
    inv x (activeModulus m) = .error .divZero ∨ ∃ i, inv x (activeModulus m) = .ok i ∧ i < activeModulus m := by
  by_cases hx : x % activeModulus m = 0
  · exact .inl ((inv_error_iff _ _).2 hx)
  · obtain ⟨i, hi, hlt, -⟩ := exists_inv (activeModulus_prime m) hx
    exact .inr ⟨i, hi, hlt⟩

/-- Rule R92 on a nonce whose multiple of the base point is affine: r is 0, or s decides. -/
theorem signCore_of_affine {d k z x y : Nat} (hk : ecMul Config.curve k (basePoint Config.curve) = .ok (.aff x y)) :
    (x % Config.curve.n = 0 ∧ signCore Config.curve d k z = .error .sigDegenerate) ∨
      ∃ i, x % Config.curve.n ≠ 0 ∧ inv (x % Config.curve.n) Config.curve.n = .ok i ∧
        x % Config.curve.n * i % Config.curve.n = 1 ∧
        signCore Config.curve d k z =
          if signS Config.curve d k z (x % Config.curve.n) i = 0 then .error .sigDegenerate
          else .ok (x % Config.curve.n, signS Config.curve d k z (x % Config.curve.n) i) := by
  by_cases hr : x % Config.curve.n = 0
  · exact .inl ⟨hr, by simp [signCore, hk, hr]⟩
  · obtain ⟨i, hi, -, hinv⟩ := exists_inv n_prime (x := x % Config.curve.n) (by rwa [Nat.mod_mod])
    exact .inr ⟨i, hr, hi, hinv, by simp [signCore, hk, hr, hi]⟩

/-- Rule R92: SIG_DEGENERATE, or r and s in [1, n-1]. -/
theorem signCore_cases (d k z : Nat) :
    signCore Config.curve d k z = .error .sigDegenerate ∨
      ∃ r s, signCore Config.curve d k z = .ok (r, s) ∧ 1 ≤ r ∧ r < Config.curve.n ∧ 1 ≤ s ∧ s < Config.curve.n := by
  obtain ⟨u, hu, -⟩ := ecMul_ok reduced_basePoint k
  cases u with
  | inf => exact .inl (by simp [signCore, hu])
  | aff x y =>
    obtain ⟨-, h⟩ | ⟨i, hr, -, -, h⟩ := signCore_of_affine (d := d) (z := z) hu
    · exact .inl h
    · by_cases hs : signS Config.curve d k z (x % Config.curve.n) i = 0
      · exact .inl (h.trans (if_pos hs))
      · exact .inr ⟨_, _, h.trans (if_neg hs), Nat.pos_of_ne_zero hr, Nat.mod_lt _ n_prime.pos, Nat.pos_of_ne_zero hs,
          imod_lt _ n_prime.pos⟩

end Sys2Proof.Machine
end

section
/-! SUPPORT. What every command can commit (rules R57, R58, R95, R97): its outcomes by the kind of its destination, which the
statements about all commands are read off. -/

namespace Sys2Proof.Machine

/-- A command whose result is one field register, with its modulus and that register. -/
inductive FieldCommand : Instr → Modulus → FReg → Prop
  | fadd (m : Modulus) (rd ra rb : FReg) : FieldCommand (.fadd m rd ra rb) m rd
  | fsub (m : Modulus) (rd ra rb : FReg) : FieldCommand (.fsub m rd ra rb) m rd
  | fmul (m : Modulus) (rd ra rb : FReg) : FieldCommand (.fmul m rd ra rb) m rd
  | finv (m : Modulus) (rd ra : FReg) : FieldCommand (.finv m rd ra) m rd

/-- A command whose result is one point register, with that register. -/
inductive PointCommand : Instr → PReg → Prop
  | pdbl (rd ra : PReg) : PointCommand (.pdbl rd ra) rd
  | padd (rd ra rb : PReg) : PointCommand (.padd rd ra rb) rd
  | pldg (rd : PReg) : PointCommand (.pldg rd) rd
  | smul (rd : PReg) (ra : FReg) (rb : PReg) : PointCommand (.smul rd ra rb) rd
  | derive (rd : PReg) (ra : FReg) : PointCommand (.derive rd ra) rd

/-- A command other than SIGN that checks a scalar. -/
inductive ScalarCommand : Instr → Prop
  | smul (rd : PReg) (ra : FReg) (rb : PReg) : ScalarCommand (.smul rd ra rb)
  | derive (rd : PReg) (ra : FReg) : ScalarCommand (.derive rd ra)

/-- What a command other than SIGN commits in `s`. -/
inductive Commits (s : State) : Instr → Except CmdError Staged → Prop
  | nop : Commits s .nop (.ok ⟨[], none, none⟩)
  | field {i : Instr} {m : Modulus} {rd : FReg} {v : Nat} : FieldCommand i m rd → v < activeModulus m →
      Commits s i (.ok (stageF rd v))
  | divZero (m : Modulus) (rd ra : FReg) : Commits s (.finv m rd ra) (.error .divZero)
  | point {i : Instr} {rd : PReg} {q : Point} : PointCommand i rd → Reduced Config.curve q →
      (PointsOnCurve s → onCurve Config.curve q = true) → Commits s i (.ok (stageP rd q))
  | invalidScalar {i : Instr} : ScalarCommand i → Commits s i (.error .invalidScalar)
  | pchk (ra : PReg) (b : Bool) : Commits s (.pchk ra) (.ok ⟨[], some b, none⟩)
  | peq (ra rb : PReg) (b : Bool) : Commits s (.peq ra rb) (.ok ⟨[], none, some b⟩)

/-- What a SIGN to the pair of `rd` commits. -/
inductive SignCommits (rd : FReg) : Except CmdError Staged → Prop
  | signed {r v : Nat} : 1 ≤ r → r < Config.curve.n → 1 ≤ v → v < Config.curve.n →
      SignCommits rd (.ok ⟨[.field rd r, .field (pairSecond rd) v], none, none⟩)
  | invalidScalar : SignCommits rd (.error .invalidScalar)
  | sigDegenerate : SignCommits rd (.error .sigDegenerate)
  | entropyFail : SignCommits rd (.error .entropyFail)

/-- A SIGN that waits for a candidate (rule R60), in a state `s`. -/
structure SignWaits (rd ra : FReg) (s : State) : Prop where
  pair : FReg.isPair rd = true
  scalar : validScalar Config.curve (s.scalarF ra) = true
  port : s.lnsrc = false
  undecided : pickNonce Config.curve Config.entMaxTries s.draws = .wait

/-- What a command answers. -/
inductive Executes (s : State) : Instr → State → Prop
  | commit {i : Instr} {r : Except CmdError Staged} : Commits s i r → Executes s i (s.commit r)
  | sign {rd ra rb : FReg} {r : Except CmdError Staged} : FReg.isPair rd = true → SignCommits rd r →
      Executes s (.sign rd ra rb) (s.commitSign r)
  | oddPair {rd ra rb : FReg} : FReg.isPair rd = false → Executes s (.sign rd ra rb) s.commitIllegal
  | waits {rd ra rb : FReg} : SignWaits rd ra s → Executes s (.sign rd ra rb) s

theorem commits_pointResult {s : State} {i : Instr} {rd : PReg} {r : Except CmdError Point} {q : Point}
    (hi : PointCommand i rd) (hr : r = .ok q) (hq : Reduced Config.curve q)
    (hc : PointsOnCurve s → onCurve Config.curve q = true) : Commits s i (pointResult rd r) := by
  subst hr
  exact .point hi hq hc

theorem commits_checkedMul {s : State} {i : Instr} {rd : PReg} {q : Point} (hi : PointCommand i rd)
    (hs : ScalarCommand i) (hq : Reduced Config.curve q) (hc : PointsOnCurve s → onCurve Config.curve q = true)
    (k : Nat) : Commits s i (pointResult rd (checkedMul Config.curve k q)) := by
  obtain h | ⟨u, hu, hured, huc⟩ := checkedMul_cases hq k
  · rw [h]
    exact .invalidScalar hs
  · exact commits_pointResult hi hu hured fun h => huc (hc h)

theorem executes_signWith (s : State) {rd : FReg} (ra rb : FReg) (hp : FReg.isPair rd = true) (d k z : Nat) :
    Executes s (.sign rd ra rb) (signWith rd d k z s) := by
  unfold signWith
  obtain h | ⟨r, v, h, hr, hrn, hv, hvn⟩ := signCore_cases d k z
  · rw [h]
    exact .sign hp .sigDegenerate
  · rw [h]
    exact .sign hp (.signed hr hrn hv hvn)

theorem executes_sign (rd ra rb : FReg) (s : State) :
    ∃ t, execSign rd ra rb s = .next t ∧ Executes s (.sign rd ra rb) t := by
  unfold execSign
  cases hp : FReg.isPair rd with
  | false => exact ⟨_, rfl, .oddPair hp⟩
  | true =>
    cases hd : validScalar Config.curve (s.scalarF ra) with
    | false => exact ⟨_, rfl, .sign hp .invalidScalar⟩
    | true =>
      cases hl : s.lnsrc with
      | true =>
        refine ⟨_, rfl, ?_⟩
        unfold signFromNonce
        split
        · exact executes_signWith s ra rb hp _ _ _
        · exact .sign hp .invalidScalar
      | false =>
        refine ⟨_, rfl, ?_⟩
        unfold signFromPort
        split
        · exact executes_signWith s ra rb hp _ _ _
        · exact .sign hp .entropyFail
        next hw => exact .waits ⟨hp, hd, hl, hw⟩

/-- Rules R57, R58: every command answers one of its outcomes. -/
theorem exec_executes (i : Instr) (s : State) : ∃ t, exec i s = .next t ∧ Executes s i t := by
  cases i with
  | nop => exact ⟨_, rfl, .commit .nop⟩
  | fadd m rd ra rb => exact ⟨_, rfl, .commit (.field (.fadd ..) (Nat.mod_lt _ (activeModulus_pos m)))⟩
  | fsub m rd ra rb => exact ⟨_, rfl, .commit (.field (.fsub ..) (imod_lt _ (activeModulus_pos m)))⟩
  | fmul m rd ra rb => exact ⟨_, rfl, .commit (.field (.fmul ..) (Nat.mod_lt _ (activeModulus_pos m)))⟩
  | finv m rd ra =>
    refine ⟨_, rfl, .commit ?_⟩
    obtain h | ⟨v, h, hv⟩ := inv_cases (s.scalarF ra) m
    · rw [h]
      exact .divZero m rd ra
    · rw [h]
      exact .field (.finv ..) hv
  | pdbl rd ra =>
    obtain ⟨d, hd, hdred, hdc⟩ := ecDbl_ok (reduced_readP s ra)
    exact ⟨_, rfl, .commit (commits_pointResult (.pdbl ..) hd hdred fun h => hdc (h ra))⟩
  | padd rd ra rb =>
    obtain ⟨a, ha, hared, hac⟩ := ecAdd_ok (reduced_readP s ra) (reduced_readP s rb)
    exact ⟨_, rfl, .commit (commits_pointResult (.padd ..) ha hared fun h => hac (h ra) (h rb))⟩
  | pchk ra => exact ⟨_, rfl, .commit (.pchk ..)⟩
  | peq ra rb => exact ⟨_, rfl, .commit (.peq ..)⟩
  | pldg rd => exact ⟨_, rfl, .commit (.point (.pldg rd) reduced_basePoint fun _ => onCurve_basePoint)⟩
  | smul rd ra rb =>
    exact ⟨_, rfl, .commit (commits_checkedMul (.smul ..) (.smul ..) (reduced_readP s rb) (fun h => h rb) _)⟩
  | derive rd ra =>
    exact ⟨_, rfl, .commit (commits_checkedMul (.derive ..) (.derive ..) reduced_basePoint
      (fun _ => onCurve_basePoint) _)⟩
  | sign rd ra rb => exact executes_sign rd ra rb s

theorem executes_of_exec {i : Instr} {s t : State} (h : exec i s = .next t) : Executes s i t := by
  obtain ⟨u, hu, hexec⟩ := exec_executes i s
  obtain rfl : u = t := Host.Outcome.next.inj (hu.symm.trans h)
  exact hexec

end Sys2Proof.Machine
end

section
/-! SUPPORT. Points on the curve as an invariant of the machine (rule R78). -/

namespace Sys2Proof.Machine

/-- A point register reads alike where its three parts are alike. -/
theorem readP_congr {s t : State} {j : PReg} (hx : t.x[j.val] = s.x[j.val]) (hy : t.y[j.val] = s.y[j.val])
    (hinf : t.inf[j.val] = s.inf[j.val]) : t.readP j = s.readP j := by
  simp only [State.readP, hx, hy, hinf]

theorem pointsOnCurve_congr {s t : State} (h : PointsOnCurve s) (hx : t.x = s.x) (hy : t.y = s.y)
    (hinf : t.inf = s.inf) : PointsOnCurve t := by
  intro j
  have hj : t.readP j = s.readP j := readP_congr (by rw [hx]) (by rw [hy]) (by rw [hinf])
  rw [hj]
  exact h j

/-- A commit that stages an on-curve point. -/
theorem pointsOnCurve_commit_stageP {s : State} (h : PointsOnCurve s) {rd : PReg} {q : Point}
    (hq : Reduced Config.curve q) (hc : onCurve Config.curve q = true) :
    PointsOnCurve (s.commit (.ok (stageP rd q))) := by
  intro j
  by_cases hj : j = rd
  · subst hj
    rwa [readP_of_holdsPoint hq (holdsPoint_commit_stageP s j hq)]
  · obtain ⟨-, -, -, -, hpoints⟩ := commandFrame_commit_stageP s rd q
    obtain ⟨hx, hy, hinf⟩ := hpoints j (by simpa using hj)
    rw [readP_congr hx hy hinf]
    exact h j

theorem pointsOnCurve_of_executes {i : Instr} {s t : State} (h : PointsOnCurve s) (ht : Executes s i t) :
    PointsOnCurve t := by
  cases ht with
  | commit hr =>
    cases hr with
    | point _ hq hc => exact pointsOnCurve_commit_stageP h hq (hc h)
    | nop | field | divZero | invalidScalar | pchk | peq => exact pointsOnCurve_congr h rfl rfl rfl
  | sign _ hr => cases hr <;> exact pointsOnCurve_congr h rfl rfl rfl
  | oddPair => exact pointsOnCurve_congr h rfl rfl rfl
  | waits => exact h

/-- Rule R14: after reset every point register is Inf. -/
theorem pointsOnCurve_of_inf {t : State} (hinf : t.inf = Vector.replicate 4 true) : PointsOnCurve t := by
  intro j
  rw [readP_of_inf (by simp [hinf])]
  rfl

/-- A register of the window that holds no part of a point. -/
def Reg.noPoint : Reg → Bool
  | .pinf | .x _ _ | .y _ _ => false
  | .id | .version | .ctrl | .status | .cmd | .f _ _ | .nonce _ | .const _ _ | .reserved => true

/-- Rule R30: PINF is the word at 0x014, and X and Y fill the offsets from 0x300 to 0x3FF. -/
theorem regAt_noPoint {off : Nat} (hpinf : off ≠ 0x014) (h : off < 0x300 ∨ 0x400 ≤ off) :
    (regAt off).noPoint = true := by
  unfold regAt
  split
  · split
    case h_6 => exact absurd rfl hpinf
    all_goals rfl
  · split
    · rfl
    · rw [if_neg (by omega)]
      split
      · rfl
      · split
        · rfl
        · split <;> rfl

/-- What a write to such a register leaves of the points. -/
theorem pointsOnCurve_writeReg {s : State} (h : PointsOnCurve s) {r : Reg} (hr : r.noPoint = true) (v : Word) :
    PointsOnCurve (s.writeReg r v) := by
  have guarded (t : State) (ht : PointsOnCurve t) : PointsOnCurve (s.unlessBusy t) := by
    unfold State.unlessBusy
    split
    · exact pointsOnCurve_congr h rfl rfl rfl
    · exact ht
  cases r with
  | id | version | const | reserved => exact h
  | status => exact pointsOnCurve_congr h rfl rfl rfl
  | ctrl =>
    obtain hv | hv := writeReg_ctrl s v <;> rw [hv]
    · exact pointsOnCurve_of_inf rfl
    · exact pointsOnCurve_congr h rfl rfl rfl
  | cmd | f | nonce => exact guarded _ (pointsOnCurve_congr h rfl rfl rfl)
  | pinf | x | y => cases hr

/-- A write that rule R56 drops keeps the points too. -/
theorem pointsOnCurve_writeReg_busy {s : State} (h : PointsOnCurve s) (hb : s.busy = true) (r : Reg) (v : Word) :
    PointsOnCurve (s.writeReg r v) := by
  obtain hw | hw | hw | hw | hw := writeReg_busy hb r v <;> rw [hw]
  · exact h
  · exact pointsOnCurve_congr h rfl rfl rfl
  · exact pointsOnCurve_congr h rfl rfl rfl
  · exact pointsOnCurve_congr h rfl rfl rfl
  · exact pointsOnCurve_of_inf rfl

theorem pointsOnCurve_engineStep {u t : State} (h : PointsOnCurve u) (ht : engineStep u = .next t) :
    PointsOnCurve t := by
  obtain ⟨hidle, -⟩ | ⟨-, -, ⟨e, -, hill⟩ | ⟨i, -, hexec⟩⟩ := engineStep_cases u
  · obtain rfl := Host.Outcome.next.inj (hidle.symm.trans ht)
    exact h
  · obtain rfl := Host.Outcome.next.inj (hill.symm.trans ht)
    exact pointsOnCurve_congr h rfl rfl rfl
  · exact pointsOnCurve_of_executes h (executes_of_exec (hexec.symm.trans ht))

/-- Settles O60: by what a command can answer, and by what a step can be. -/
theorem stepKeepsPointsOnTheCurve : Obligations.StepKeepsPointsOnTheCurve := by
  unfold Obligations.StepKeepsPointsOnTheCurve
  intro s t h
  refine ⟨fun i hi => pointsOnCurve_of_executes h (executes_of_exec hi), fun hstep hwrite => ?_⟩
  have hu : PointsOnCurve s.taken := pointsOnCurve_congr h rfl rfl rfl
  cases stepped_of_step hstep with
  | engine _ ht => exact pointsOnCurve_engineStep hu ht
  | access hin hserved =>
    cases hserved with
    | notServed _ hr => exact pointsOnCurve_congr h rfl rfl rfl
    | read off hr hal => exact pointsOnCurve_congr h rfl rfl rfl
    | write off v hr hal =>
      suffices hp : PointsOnCurve (s.taken.busWrite off v) from pointsOnCurve_congr hp rfl rfl rfl
      obtain hb | hreset | ⟨hpinf, hout⟩ := hwrite _ _ _ _ hin
      · exact pointsOnCurve_writeReg_busy hu hb _ _
      · exact absurd (hreset.symm.trans hr) (by decide)
      · exact pointsOnCurve_writeReg hu (regAt_noPoint (by omega) (by omega)) v
  | candidate w hr =>
    obtain ⟨-, ho⟩ | ⟨-, ho⟩ := offer_cases s.taken w <;> rw [ho]
    · exact pointsOnCurve_congr h rfl rfl rfl
    · exact hu
  | candidateInReset hr => exact hu
  | resetPin b => exact pointsOnCurve_of_inf rfl

end Sys2Proof.Machine
end

section
/-! SUPPORT. The entropy candidates (rule R94): what decides the nonce, and which SIGN waits for one. -/

namespace Sys2Proof.Machine

theorem rejected_iff (w : Wide) : rejected w = true ↔ validScalar Config.curve w.toNat = false := by
  simp [rejected]

/-- Rejected candidates use up tries and nothing else. -/
theorem pickNonce_append {pre : List Wide} (hpre : ∀ v ∈ pre, rejected v = true) (tries : Nat) (rest : List Wide) :
    pickNonce Config.curve (pre.length + tries) (pre ++ rest) = pickNonce Config.curve tries rest := by
  induction pre with
  | nil => simp
  | cons v pre ih =>
    obtain ⟨hv, hpre⟩ := List.forall_mem_cons.1 hpre
    have hlen : (v :: pre).length + tries = (pre.length + tries) + 1 := by
      rw [List.length_cons]
      omega
    rw [hlen, List.cons_append, pickNonce, (rejected_iff v).1 hv]
    exact ih hpre

/-- The engine waits while every candidate was rejected and tries are left. -/
theorem pickNonce_eq_wait_iff (tries : Nat) (draws : List Wide) :
    pickNonce Config.curve tries draws = .wait ↔ draws.length < tries ∧ ∀ v ∈ draws, rejected v = true := by
  induction draws generalizing tries with
  | nil => cases tries <;> simp [pickNonce]
  | cons v draws ih =>
    cases tries with
    | zero => simp [pickNonce]
    | succ tries =>
      rw [pickNonce]
      cases hv : validScalar Config.curve v.toNat with
      | true => simp [rejected, hv]
      | false =>
        simp only [Bool.false_eq_true, if_false, ih, List.length_cons, Nat.add_lt_add_iff_right, List.forall_mem_cons,
          (rejected_iff v).2 hv, true_and]

/-- A SIGN that takes its nonce from the port executes with a valid scalar d. -/
theorem signsFromPort_iff (s : State) :
    s.signsFromPort = true ↔ s.busy = true ∧ s.lnsrc = false ∧
      ∃ rd ra rb, decode s.lcmd = .ok (.sign rd ra rb) ∧ validScalar Config.curve (s.scalarF ra) = true := by
  unfold State.signsFromPort
  split
  next rd ra rb hd => simp [hd, and_assoc]
  next hd =>
    simp only [Bool.and_false, Bool.false_eq_true, false_iff]
    rintro ⟨-, -, rd, ra, rb, h, -⟩
    exact hd rd ra rb h

theorem signsFromPort_congr {s t : State} (hb : t.busy = s.busy) (hl : t.lnsrc = s.lnsrc) (hc : t.lcmd = s.lcmd)
    (hf : t.f = s.f) : t.signsFromPort = s.signsFromPort := by
  simp only [State.signsFromPort, State.scalarF, State.readF, hb, hl, hc, hf]

theorem awaitsCandidate_iff (s : State) :
    s.awaitsCandidate = true ↔
      s.signsFromPort = true ∧ s.draws.length < Config.entMaxTries ∧ ∀ v ∈ s.draws, rejected v = true := by
  rw [State.awaitsCandidate, Bool.and_eq_true, beq_iff_eq, pickNonce_eq_wait_iff]

/-- Rule R50 (e): a word that decodes to SIGN names a pair. -/
theorem isPair_of_kindE {v : BitVec 4} {rd : FReg} (h : kindE v = .ok rd) : FReg.isPair rd = true := by
  unfold kindE at h
  split at h
  next hp =>
    obtain rfl := Except.ok.inj h
    exact hp
  next => cases h

end Sys2Proof.Machine
end

section
/-! SUPPORT. The engine's invariant (rules R26, R55, R94, R97). -/

namespace Sys2Proof.Machine

/-- An idle engine meets the invariant as soon as its hidden state is cleared. -/
theorem inv_of_cleared {t : State} (hb : t.busy = false) (hc : EngineCleared t)
    (hr : t.inReset = true → t = { State.reset with inReset := true, inbox := t.inbox, resp := t.resp }) : t.Inv := by
  obtain ⟨hlcmd, hlnsrc, hdraws⟩ := hc
  refine ⟨fun h => ?_, fun _ => ⟨hlcmd, hlnsrc, hdraws⟩, ?_, ?_, fun h => absurd hdraws h, hr⟩
  · rw [hb] at h
    cases h
  · simp [hdraws]
  · simp [hdraws]

/-- A state that keeps what the engine holds, and the field registers while a command executes, meets the invariant too. -/
theorem inv_of_keepsEngine {s t : State} (h : s.Inv) (hb : t.busy = s.busy) (hd : s.done = false → t.done = false)
    (he : t.err = s.err) (hcmd : t.cmdLast = s.cmdLast) (hlcmd : t.lcmd = s.lcmd) (hlnsrc : t.lnsrc = s.lnsrc)
    (hdraws : t.draws = s.draws) (hf : s.busy = true → t.f = s.f)
    (hr : t.inReset = true → t = { State.reset with inReset := true, inbox := t.inbox, resp := t.resp }) : t.Inv := by
  obtain ⟨hbusy, hidle, hlen, hrej, hport, -⟩ := h
  refine ⟨fun ht => ?_, fun ht => ?_, hdraws ▸ hlen, hdraws ▸ hrej, fun hne => ?_, hr⟩
  · rw [he, hcmd, hlcmd]
    obtain ⟨hdone, herr, hlast⟩ := hbusy (hb ▸ ht)
    exact ⟨hd hdone, herr, hlast⟩
  · rw [EngineCleared, hlcmd, hlnsrc, hdraws]
    exact hidle (hb ▸ ht)
  · have hs := hport (hdraws ▸ hne)
    rw [signsFromPort_congr hb hlnsrc hlcmd (hf ((signsFromPort_iff s).1 hs).1)]
    exact hs

/-- The registers that hold reset values do so whatever the events to come and the last answer are. -/
theorem inv_with_inbox_resp {s : State} (h : s.Inv) (es : List Event) (w : Option Word) :
    ({ s with inbox := es, resp := w } : State).Inv := by
  refine inv_of_keepsEngine h rfl id rfl rfl rfl rfl rfl (fun _ => rfl) fun hr => ?_
  obtain ⟨-, -, -, -, -, hreset⟩ := h
  rw [hreset hr]

/-- Rule R55: acceptance starts with no candidate drawn. -/
theorem inv_accept (s : State) (w : Word) (hr : s.inReset = false) : (s.accept w).Inv := by
  refine ⟨fun _ => ⟨rfl, rfl, rfl⟩, nofun, Nat.zero_le _, nofun, fun h => absurd rfl h, fun h => ?_⟩
  exact absurd (hr.symm.trans h) (by decide)

theorem engineCleared_commit (s : State) (r : Except CmdError Staged) : EngineCleared (s.commit r) := by
  simp [EngineCleared]

theorem inv_softReset (s : State) : s.softReset.Inv := inv_of_cleared rfl ⟨rfl, rfl, rfl⟩ nofun

theorem inv_resetPin (s : State) (b : Bool) : (s.resetPin b).Inv := by
  refine inv_of_cleared rfl ⟨rfl, rfl, rfl⟩ fun h => ?_
  cases b
  · cases h
  · rfl

/-- A write to a block that is not in reset. -/
theorem inv_writeReg {s : State} (h : s.Inv) (hr : s.inReset = false) (r : Reg) (v : Word) : (s.writeReg r v).Inv := by
  have out {P : Prop} (h1 : s.inReset = true) : P := absurd (hr.symm.trans h1) (by decide)
  cases hb : s.busy with
  | true =>
    obtain hw | hw | hw | hw | hw := writeReg_busy hb r v <;> rw [hw]
    · exact h
    · exact inv_of_keepsEngine h rfl id rfl rfl rfl rfl rfl (fun _ => rfl) out
    · exact inv_of_keepsEngine h rfl (fun hd => by simp [hd]) rfl rfl rfl rfl rfl (fun _ => rfl) out
    · exact inv_of_keepsEngine h rfl id rfl rfl rfl rfl rfl (fun _ => rfl) out
    · exact inv_softReset s
  | false =>
    have guarded {t : State} (ht : t.Inv) : (s.unlessBusy t).Inv := by rwa [unlessBusy_of_idle hb]
    have notBusy {P : Prop} (h1 : s.busy = true) : P := absurd (hb.symm.trans h1) (by decide)
    cases r with
    | id | version | const | reserved => exact h
    | status =>
      have hdone (hd : s.done = false) : (s.hostStatus v).done = false := by simp [hd]
      exact inv_of_keepsEngine h rfl hdone rfl rfl rfl rfl rfl (fun _ => rfl) out
    | ctrl =>
      obtain hw | hw := writeReg_ctrl s v <;> rw [hw]
      · exact inv_softReset s
      · exact inv_of_keepsEngine h rfl id rfl rfl rfl rfl rfl (fun _ => rfl) out
    | cmd => exact guarded (inv_accept s v hr)
    | pinf | f | x | y | nonce =>
      exact guarded (inv_of_keepsEngine h rfl id rfl rfl rfl rfl rfl notBusy out)

/-- Rule R94: a candidate is drawn after rejected ones only, while tries are left. -/
theorem inv_offer {s : State} (h : s.Inv) (hr : s.inReset = false) (w : Wide) : (s.offer w).Inv := by
  obtain ⟨ha, ho⟩ | ⟨-, ho⟩ := offer_cases s w <;> rw [ho]
  · obtain ⟨hport, hlen, hrej⟩ := (awaitsCandidate_iff s).1 ha
    obtain ⟨hbusy, -, -, -, -, -⟩ := h
    have hb : s.busy = true := ((signsFromPort_iff s).1 hport).1
    refine ⟨hbusy, fun h => absurd (hb.symm.trans h) (by decide), ?_, ?_, fun _ => hport,
      fun h => absurd (hr.symm.trans h) (by decide)⟩
    · simpa using hlen
    · simpa using hrej
  · exact h

/-- Settles O59: by what a step can be. -/
theorem stepKeepsTheInvariant : Obligations.StepKeepsTheInvariant := by
  unfold Obligations.StepKeepsTheInvariant
  intro s t h hstep
  have hu : s.taken.Inv := inv_with_inbox_resp h _ _
  cases stepped_of_step hstep with
  | engine _ ht =>
    obtain rfl | ⟨hr, ⟨r, rfl⟩ | ⟨r, rfl⟩⟩ := engineStep_next ht
    · exact hu
    · exact inv_of_cleared (by simp) (engineCleared_commit _ r) fun h => by simp_all
    · exact inv_of_cleared (by simp) (engineCleared_commit _ r) fun h => by simp_all
  | access _ hserved =>
    cases hserved with
    | notServed => exact inv_with_inbox_resp hu _ _
    | read => exact inv_with_inbox_resp hu _ _
    | write off v hr => exact inv_with_inbox_resp (inv_writeReg hu hr _ v) _ _
  | candidate w hr => exact inv_offer hu hr w
  | candidateInReset => exact hu
  | resetPin b => exact inv_resetPin _ b

/-- Settles O58: after reset the engine is idle and holds nothing. -/
theorem resetMeetsTheInvariant : Obligations.ResetMeetsTheInvariant := inv_of_cleared rfl ⟨rfl, rfl, rfl⟩ nofun

end Sys2Proof.Machine
end

section
/-! SUPPORT. The decoder read backwards (rules R46, R47, R49): the operand kinds by what they accept, and the word of a row. -/

namespace Sys2Proof

theorem except_bind_eq_ok_iff {α β : Type} {x : Except Illegal α} {f : α → Except Illegal β} {b : β} :
    (x >>= f) = .ok b ↔ ∃ a, x = .ok a ∧ f a = .ok b := by
  cases x with
  | ok a => simp
  | error e =>
    constructor
    · intro h
      cases h
    · rintro ⟨a, h, -⟩
      cases h

theorem kindZero_eq_ok_iff {k : Nat} {v : BitVec k} {u : Unit} : kindZero v = .ok u ↔ v = 0#k := by
  unfold kindZero
  split <;> simp_all

theorem kindP_eq_ok_iff {v : BitVec 4} {r : PReg} : kindP v = .ok r ↔ v = bitsP r := by
  revert v r; decide

theorem kindE_eq_ok_iff {v : BitVec 4} {r : FReg} : kindE v = .ok r ↔ v = bitsF r ∧ FReg.isPair r = true := by
  revert v r; decide

@[simp] theorem bitsF_kindF (v : BitVec 4) : bitsF (kindF v) = v := rfl

@[simp] theorem bitsM_kindM (v : BitVec 1) : bitsM (kindM v) = v := by
  revert v; decide

/-- The row that decodes a word to `i` reads off its operands, so the word's fields are those `i` is encoded from. -/
theorem encode_of_decodeRow {w : Word} {i : Instr} (h : decodeRow w = .ok i) :
    i.wellFormed = true ∧ encode i = assemble (fieldOpc w) (fieldRd w) (fieldRa w) (fieldRb w) (fieldM w) := by
  unfold decodeRow at h
  split at h <;>
    simp only [except_bind_eq_ok_iff, kindZero_eq_ok_iff, kindP_eq_ok_iff, kindE_eq_ok_iff, Except.ok.injEq,
      exists_const, reduceCtorEq] at h
  case h_1 =>
    obtain ⟨hd, ha, hb, hm, rfl⟩ := h
    simp [Instr.wellFormed, encode, *]
  case h_2 | h_3 | h_4 =>
    subst h
    simp [Instr.wellFormed, encode, *]
  case h_5 =>
    obtain ⟨hb, rfl⟩ := h
    simp [Instr.wellFormed, encode, *]
  case h_6 =>
    obtain ⟨hb, hm, d, hd, a, ha, rfl⟩ := h
    simp [Instr.wellFormed, encode, *]
  case h_7 =>
    obtain ⟨hm, d, hd, a, ha, b, hb, rfl⟩ := h
    simp [Instr.wellFormed, encode, *]
  case h_8 =>
    obtain ⟨hd, hb, hm, a, ha, rfl⟩ := h
    simp [Instr.wellFormed, encode, *]
  case h_9 =>
    obtain ⟨hd, hm, a, ha, b, hb, rfl⟩ := h
    simp [Instr.wellFormed, encode, *]
  case h_10 =>
    obtain ⟨ha, hb, hm, d, hd, rfl⟩ := h
    simp [Instr.wellFormed, encode, *]
  case h_11 =>
    obtain ⟨hm, d, hd, b, hb, rfl⟩ := h
    simp [Instr.wellFormed, encode, *]
  case h_12 =>
    obtain ⟨hb, hm, d, hd, rfl⟩ := h
    simp [Instr.wellFormed, encode, *]
  case h_13 =>
    obtain ⟨hm, d, ⟨hd, hpair⟩, rfl⟩ := h
    simp [Instr.wellFormed, encode, *]

theorem fieldRes_of_decode {w : Word} {i : Instr} (h : decode w = .ok i) :
    fieldRes w = 0#11 ∧ decodeRow w = .ok i := by
  unfold decode at h
  split at h
  next hres => exact ⟨hres, h⟩
  next => cases h

theorem encode_of_decode {w : Word} {i : Instr} (h : decode w = .ok i) : i.wellFormed = true ∧ encode i = w := by
  obtain ⟨hres, hrow⟩ := fieldRes_of_decode h
  obtain ⟨hwf, henc⟩ := encode_of_decodeRow hrow
  exact ⟨hwf, henc.trans (assemble_fields w hres)⟩

/-- Settles O4: the fields read are the fields encoded, and a word without reserved bits is made of its fields. -/
theorem encodeOfDecode : Obligations.EncodeOfDecode := by
  unfold Obligations.EncodeOfDecode
  exact fun w i h => encode_of_decode h

/-! ### Mask and match (rule R49) -/

theorem encode_and_mask (i : Instr) (h : i.wellFormed = true) : encode i &&& i.row.mask = i.row.bits := by
  cases i with
  | nop => exact Laws.EncodeMatchesRow.nop h
  | fadd => exact Laws.EncodeMatchesRow.fadd _ _ _ _ h
  | fsub => exact Laws.EncodeMatchesRow.fsub _ _ _ _ h
  | fmul => exact Laws.EncodeMatchesRow.fmul _ _ _ _ h
  | finv => exact Laws.EncodeMatchesRow.finv _ _ _ h
  | pdbl => exact Laws.EncodeMatchesRow.pdbl _ _ h
  | padd => exact Laws.EncodeMatchesRow.padd _ _ _ h
  | pchk => exact Laws.EncodeMatchesRow.pchk _ h
  | peq => exact Laws.EncodeMatchesRow.peq _ _ h
  | pldg => exact Laws.EncodeMatchesRow.pldg _ h
  | smul => exact Laws.EncodeMatchesRow.smul _ _ _ h
  | derive => exact Laws.EncodeMatchesRow.derive _ _ h
  | sign => exact Laws.EncodeMatchesRow.sign _ _ _ h

theorem row_mem_opcodeTable (i : Instr) : i.row ∈ opcodeTable := by
  cases i <;> simp [opcodeTable, Instr.row]

/-- The mask of rule R49 that looks at OPC, the reserved bits, and the bits `md`, `ma`, `mb`, `mm` of the operand fields. -/
def maskOf (md ma mb : BitVec 4) (mm : BitVec 1) : Word := assemble 0xFF#8 md ma mb mm ||| 0xFFE00000#32

/-- What a match under such a mask says of the fields. -/
theorem fields_of_match {w : Word} (opc : BitVec 8) (md ma mb : BitVec 4) (mm : BitVec 1)
    (h : w &&& maskOf md ma mb mm = assemble opc 0#4 0#4 0#4 0#1) :
    fieldRes w = 0#11 ∧ fieldOpc w = opc ∧ fieldRd w &&& md = 0#4 ∧ fieldRa w &&& ma = 0#4 ∧
      fieldRb w &&& mb = 0#4 ∧ fieldM w &&& mm = 0#1 := by
  have field {k : Nat} (off : Nat) : w.extractLsb' off k &&&
      ((assemble 0xFF#8 md ma mb mm).extractLsb' off k ||| (0xFFE00000#32).extractLsb' off k) =
        (assemble opc 0#4 0#4 0#4 0#1).extractLsb' off k := by
    rw [← BitVec.extractLsb'_or, ← BitVec.extractLsb'_and, ← h, maskOf]
  have hres : fieldRes w &&& (fieldRes (assemble 0xFF#8 md ma mb mm) ||| BitVec.allOnes 11) =
      fieldRes (assemble opc 0#4 0#4 0#4 0#1) := field 21
  have hopc : fieldOpc w &&& (fieldOpc (assemble (BitVec.allOnes 8) md ma mb mm) ||| 0#8) =
      fieldOpc (assemble opc 0#4 0#4 0#4 0#1) := field 0
  have hrd : fieldRd w &&& (fieldRd (assemble 0xFF#8 md ma mb mm) ||| 0#4) =
      fieldRd (assemble opc 0#4 0#4 0#4 0#1) := field 8
  have hra : fieldRa w &&& (fieldRa (assemble 0xFF#8 md ma mb mm) ||| 0#4) =
      fieldRa (assemble opc 0#4 0#4 0#4 0#1) := field 12
  have hrb : fieldRb w &&& (fieldRb (assemble 0xFF#8 md ma mb mm) ||| 0#4) =
      fieldRb (assemble opc 0#4 0#4 0#4 0#1) := field 16
  have hm : fieldM w &&& (fieldM (assemble 0xFF#8 md ma mb mm) ||| 0#1) =
      fieldM (assemble opc 0#4 0#4 0#4 0#1) := field 20
  refine ⟨?_, ?_, by simpa using hrd, by simpa using hra, by simpa using hrb, by simpa using hm⟩
  · rwa [fieldRes_assemble, BitVec.zero_or, BitVec.and_allOnes, fieldRes_assemble] at hres
  · rwa [fieldOpc_assemble, BitVec.or_zero, BitVec.and_allOnes, fieldOpc_assemble] at hopc

theorem bitsP_of_and {v : BitVec 4} (h : v &&& 12#4 = 0#4) : ∃ r : PReg, v = bitsP r := by
  revert v; decide

theorem bitsF_of_and_one {v : BitVec 4} (h : v &&& 1#4 = 0#4) : ∃ r : FReg, FReg.isPair r = true ∧ v = bitsF r := by
  revert v; decide

theorem bits4_of_and {v : BitVec 4} (h : v &&& 15#4 = 0#4) : v = 0#4 := by
  revert v; decide

theorem bits1_of_and {v : BitVec 1} (h : v &&& 1#1 = 0#1) : v = 0#1 := by
  revert v; decide

/-- A word is put together again from what its fields are. -/
theorem assemble_eq {w : Word} {opc : BitVec 8} {d a b : BitVec 4} {m : BitVec 1} (hres : fieldRes w = 0#11)
    (hopc : fieldOpc w = opc) (hd : fieldRd w = d) (ha : fieldRa w = a) (hb : fieldRb w = b) (hm : fieldM w = m) :
    assemble opc d a b m = w := by
  subst hopc hd ha hb hm
  exact assemble_fields w hres

/-- Kinds F and M admit every value of their fields. -/
theorem assemble_kinds {w : Word} {opc : BitVec 8}
    (h : w &&& maskOf 0#4 0#4 0#4 0#1 = assemble opc 0#4 0#4 0#4 0#1) :
    assemble opc (bitsF (kindF (fieldRd w))) (bitsF (kindF (fieldRa w))) (bitsF (kindF (fieldRb w)))
      (bitsM (kindM (fieldM w))) = w := by
  obtain ⟨hres, ho, -⟩ := fields_of_match opc 0#4 0#4 0#4 0#1 h
  exact assemble_eq hres ho rfl rfl rfl (bitsM_kindM _).symm

/-- Rule R49: a word that a row's mask and match accept is the word of a command of that row. -/
theorem exists_encode_of_match (i : Instr) {w : Word} (h : w &&& i.row.mask = i.row.bits) :
    ∃ j : Instr, j.wellFormed = true ∧ encode j = w ∧ j.row = i.row := by
  cases i with
  | nop =>
    obtain ⟨hres, ho, hd, ha, hb, hm⟩ := fields_of_match 0x00#8 15#4 15#4 15#4 1#1 h
    exact ⟨.nop, rfl, assemble_eq hres ho (bits4_of_and hd) (bits4_of_and ha) (bits4_of_and hb) (bits1_of_and hm), rfl⟩
  | fadd => exact ⟨.fadd _ _ _ _, rfl, assemble_kinds (opc := 0x01#8) h, rfl⟩
  | fsub => exact ⟨.fsub _ _ _ _, rfl, assemble_kinds (opc := 0x02#8) h, rfl⟩
  | fmul => exact ⟨.fmul _ _ _ _, rfl, assemble_kinds (opc := 0x03#8) h, rfl⟩
  | finv =>
    obtain ⟨hres, ho, -, -, hb, -⟩ := fields_of_match 0x04#8 0#4 0#4 15#4 0#1 h
    exact ⟨.finv (kindM _) (kindF _) (kindF _), rfl,
      assemble_eq hres ho rfl rfl (bits4_of_and hb) (bitsM_kindM _).symm, rfl⟩
  | pdbl =>
    obtain ⟨hres, ho, hd, ha, hb, hm⟩ := fields_of_match 0x08#8 12#4 12#4 15#4 1#1 h
    obtain ⟨d, hd⟩ := bitsP_of_and hd
    obtain ⟨a, ha⟩ := bitsP_of_and ha
    exact ⟨.pdbl d a, rfl, assemble_eq hres ho hd ha (bits4_of_and hb) (bits1_of_and hm), rfl⟩
  | padd =>
    obtain ⟨hres, ho, hd, ha, hb, hm⟩ := fields_of_match 0x09#8 12#4 12#4 12#4 1#1 h
    obtain ⟨d, hd⟩ := bitsP_of_and hd
    obtain ⟨a, ha⟩ := bitsP_of_and ha
    obtain ⟨b, hb⟩ := bitsP_of_and hb
    exact ⟨.padd d a b, rfl, assemble_eq hres ho hd ha hb (bits1_of_and hm), rfl⟩
  | pchk =>
    obtain ⟨hres, ho, hd, ha, hb, hm⟩ := fields_of_match 0x0A#8 15#4 12#4 15#4 1#1 h
    obtain ⟨a, ha⟩ := bitsP_of_and ha
    exact ⟨.pchk a, rfl, assemble_eq hres ho (bits4_of_and hd) ha (bits4_of_and hb) (bits1_of_and hm), rfl⟩
  | peq =>
    obtain ⟨hres, ho, hd, ha, hb, hm⟩ := fields_of_match 0x0B#8 15#4 12#4 12#4 1#1 h
    obtain ⟨a, ha⟩ := bitsP_of_and ha
    obtain ⟨b, hb⟩ := bitsP_of_and hb
    exact ⟨.peq a b, rfl, assemble_eq hres ho (bits4_of_and hd) ha hb (bits1_of_and hm), rfl⟩
  | pldg =>
    obtain ⟨hres, ho, hd, ha, hb, hm⟩ := fields_of_match 0x0C#8 12#4 15#4 15#4 1#1 h
    obtain ⟨d, hd⟩ := bitsP_of_and hd
    exact ⟨.pldg d, rfl, assemble_eq hres ho hd (bits4_of_and ha) (bits4_of_and hb) (bits1_of_and hm), rfl⟩
  | smul =>
    obtain ⟨hres, ho, hd, -, hb, hm⟩ := fields_of_match 0x10#8 12#4 0#4 12#4 1#1 h
    obtain ⟨d, hd⟩ := bitsP_of_and hd
    obtain ⟨b, hb⟩ := bitsP_of_and hb
    exact ⟨.smul d (kindF _) b, rfl, assemble_eq hres ho hd rfl hb (bits1_of_and hm), rfl⟩
  | derive =>
    obtain ⟨hres, ho, hd, -, hb, hm⟩ := fields_of_match 0x11#8 12#4 0#4 15#4 1#1 h
    obtain ⟨d, hd⟩ := bitsP_of_and hd
    exact ⟨.derive d (kindF _), rfl, assemble_eq hres ho hd rfl (bits4_of_and hb) (bits1_of_and hm), rfl⟩
  | sign =>
    obtain ⟨hres, ho, hd, -, -, hm⟩ := fields_of_match 0x18#8 1#4 0#4 0#4 1#1 h
    obtain ⟨d, hpair, hd⟩ := bitsF_of_and_one hd
    exact ⟨.sign d (kindF _) (kindF _), hpair, assemble_eq hres ho hd rfl rfl (bits1_of_and hm), rfl⟩

theorem exists_row_of_mem_opcodeTable {r : Row} (h : r ∈ opcodeTable) : ∃ i : Instr, r = i.row := by
  simp only [opcodeTable, List.mem_cons, List.not_mem_nil, or_false] at h
  obtain h | h | h | h | h | h | h | h | h | h | h | h | h := h <;> exact ⟨_, h⟩

/-- Settles O5: both ways through the word of a command, which its row accepts and which decodes to it. -/
theorem decodeMatchesOpcodeTable : Obligations.DecodeMatchesOpcodeTable := by
  unfold Obligations.DecodeMatchesOpcodeTable
  refine fun w => ⟨fun i h => ?_, fun r hr h => ?_⟩
  · obtain ⟨hwf, rfl⟩ := encode_of_decode h
    exact ⟨row_mem_opcodeTable i, encode_and_mask i hwf⟩
  · obtain ⟨i, rfl⟩ := exists_row_of_mem_opcodeTable hr
    obtain ⟨j, hwf, rfl, hrow⟩ := exists_encode_of_match i h
    exact ⟨j, decodeOfEncode j hwf, hrow⟩

/-! ### The illegal words (rule R50) -/

/-- A field check, or the decoder, refuses. -/
def Refuses {α : Type} (x : Except Illegal α) : Prop := ∃ e, x = .error e

@[simp] theorem refuses_ok {α : Type} (a : α) : ¬ Refuses (.ok a : Except Illegal α) := by
  rintro ⟨e, h⟩
  cases h

@[simp] theorem refuses_error {α : Type} (e : Illegal) : Refuses (.error e : Except Illegal α) := ⟨e, rfl⟩

theorem refuses_bind {α β : Type} (x : Except Illegal α) (f : α → Except Illegal β) :
    Refuses (x >>= f) ↔ Refuses x ∨ ∃ a, x = .ok a ∧ Refuses (f a) := by
  cases x with
  | ok a => simp
  | error e =>
    have h : (Except.error e >>= f) = .error e := rfl
    simp [h]

@[simp] theorem refuses_kindZero {k : Nat} (v : BitVec k) : Refuses (kindZero v) ↔ v.toNat ≠ 0 := by
  unfold kindZero
  split <;> simp_all [BitVec.toNat_eq]

@[simp] theorem refuses_kindP (v : BitVec 4) : Refuses (kindP v) ↔ 4 ≤ v.toNat := by
  unfold kindP
  split <;> simp <;> omega

@[simp] theorem refuses_kindE (v : BitVec 4) : Refuses (kindE v) ↔ v.toNat % 2 = 1 := by
  unfold kindE FReg.isPair
  split <;> simp_all

theorem kindZero_eq_ok_iff_toNat {k : Nat} {v : BitVec k} {u : Unit} : kindZero v = .ok u ↔ v.toNat = 0 := by
  rw [kindZero_eq_ok_iff, BitVec.toNat_eq, BitVec.toNat_zero]

theorem exists_kindP_eq_ok (v : BitVec 4) : (∃ r, kindP v = .ok r) ↔ v.toNat < 4 := by
  unfold kindP
  split <;> simp_all

/-- The cases (a) and (c) to (e) of rule R50, on the fields as numbers. -/
def BadFields (opc rd ra rb m : Nat) : Prop :=
  opc ∉ [0x00, 0x01, 0x02, 0x03, 0x04, 0x08, 0x09, 0x0A, 0x0B, 0x0C, 0x10, 0x11, 0x18] ∨
    (opc ∈ [0x00, 0x0A, 0x0B] ∧ rd ≠ 0) ∨
    (opc ∈ [0x00, 0x0C] ∧ ra ≠ 0) ∨
    (opc ∈ [0x00, 0x04, 0x08, 0x0A, 0x0C, 0x11] ∧ rb ≠ 0) ∨
    (opc ∉ [0x01, 0x02, 0x03, 0x04] ∧ m ≠ 0) ∨
    (opc ∈ [0x08, 0x09, 0x0C, 0x10, 0x11] ∧ 4 ≤ rd) ∨
    (opc ∈ [0x08, 0x09, 0x0A, 0x0B] ∧ 4 ≤ ra) ∨
    (opc ∈ [0x09, 0x0B, 0x10] ∧ 4 ≤ rb) ∨
    (opc = 0x18 ∧ rd % 2 = 1)

theorem refuses_decodeRow (w : Word) : Refuses (decodeRow w) ↔
    BadFields (fieldOpc w).toNat (fieldRd w).toNat (fieldRa w).toNat (fieldRb w).toNat (fieldM w).toNat := by
  unfold decodeRow
  split
  case h_14 =>
    -- OPC differs from each of the thirteen values, so as a number too.
    simp_all [BadFields, BitVec.toNat_eq]
  all_goals
    rename_i hop
    simp [BadFields, hop, refuses_bind, kindZero_eq_ok_iff_toNat, exists_kindP_eq_ok]
  all_goals omega

theorem refuses_decode (w : Word) : Refuses (decode w) ↔ (fieldRes w).toNat ≠ 0 ∨ Refuses (decodeRow w) := by
  unfold decode
  split
  next h => simp [h]
  next h =>
    have hne : (fieldRes w).toNat ≠ 0 := fun h0 => h (BitVec.eq_of_toNat_eq h0)
    simp [hne]

/-- A field of a word as a number (rules R32, R46). -/
theorem toNat_extract {n : Nat} (w : BitVec n) (off k : Nat) :
    (w.extractLsb' off k).toNat = w.toNat / 2 ^ off % 2 ^ k := by
  rw [BitVec.extractLsb'_toNat, Nat.shiftRight_eq_div_pow]

/-- The reserved bits are the topmost ones, so no bound cuts them. -/
theorem toNat_fieldRes (w : Word) : (fieldRes w).toNat = w.toNat / 2 ^ 21 := by
  have hw := w.isLt
  rw [fieldRes, toNat_extract]
  omega

/-- Settles O6: the checks of the row that OPC names, field by field as numbers, after the check of the reserved bits. -/
theorem illegalWordsAreThoseOfR50 : Obligations.IllegalWordsAreThoseOfR50 := by
  unfold Obligations.IllegalWordsAreThoseOfR50
  intro w
  have h := refuses_decode w
  rw [refuses_decodeRow, toNat_fieldRes] at h
  simp only [fieldOpc, fieldRd, fieldRa, fieldRb, fieldM, toNat_extract, pow_zero, Nat.div_one] at h
  exact h.trans or_left_comm

/-- Settles O2: twenty words, each decoded. -/
theorem specWordsDecode : Obligations.SpecWordsDecode := by
  unfold Obligations.SpecWordsDecode
  decide

end Sys2Proof
end

section
/-! SUPPORT. The engine's turn and how an executing command ends (rules R54 to R60). -/

namespace Sys2Proof.Machine

theorem engineStep_of_decode_ok {s : State} {i : Instr} (hb : s.busy = true) (hr : s.inReset = false)
    (hd : decode s.lcmd = .ok i) : engineStep s = exec i s := by
  simp [engineStep, hb, hr, hd]

/-- Settles O7: an empty inbox and an engine turn at its head both are the engine's turn, which decodes LCMD. -/
theorem stepRunsTheDecodedCommand : Obligations.StepRunsTheDecodedCommand := by
  unfold Obligations.StepRunsTheDecodedCommand
  have turn (s : State) (rest : List Event) (hin : s.inbox = .engine :: rest) :
      step s = engineStep { s with inbox := rest } := by
    rw [step_of_cons hin, taken_of_cons hin]
    rfl
  refine ⟨fun s => ⟨step_of_empty, turn s⟩, fun s i hb hr hd => ?_⟩
  refine ⟨engineStep_of_decode_ok hb hr hd, fun hin => ?_, fun rest hin => ?_⟩
  · rw [step_of_empty hin, engineStep_of_decode_ok hb hr hd]
  · exact (turn s rest hin).trans (engineStep_of_decode_ok hb hr hd)

/-- Settles O11: of all a step can be, only a dropped write, a write to CTRL or STATUS, a read, a candidate and a wait leave the
engine busy. -/
theorem busyFreezesOperands : Obligations.BusyFreezesOperands := by
  unfold Obligations.BusyFreezesOperands
  intro s t hb hstep htb
  cases stepped_of_step hstep with
  | engine _ ht =>
    obtain rfl | ⟨-, ⟨r, rfl⟩ | ⟨r, rfl⟩⟩ := engineStep_next ht
    · simp
    · simp at htb
    · simp at htb
  | access _ hserved =>
    cases hserved with
    | notServed | read => simp
    | write off v =>
      obtain hw | hw | hw | hw | hw := writeReg_busy (s := s.taken) hb (regAt off) v <;>
        simp only [State.busWrite, hw] at htb ⊢
      · simp
      · simp
      · simp
      · simp
      · simp at htb
  | candidate w =>
    obtain ⟨-, ho⟩ | ⟨-, ho⟩ := offer_cases s.taken w <;> rw [ho]
    · simp
    · simp
  | candidateInReset => simp
  | resetPin b => simp at htb

/-- Settles O12: of all a step can be, only a commit and the two resets leave the engine idle. -/
theorem commandEndsByCommitOrReset : Obligations.CommandEndsByCommitOrReset := by
  unfold Obligations.CommandEndsByCommitOrReset
  intro s t hb hstep htb
  have still {P : Prop} (h : s.busy = false) : P := absurd (hb.symm.trans h) (by decide)
  cases stepped_of_step hstep with
  | engine hturn ht =>
    obtain rfl | ⟨-, ⟨r, rfl⟩ | ⟨r, rfl⟩⟩ := engineStep_next ht
    · exact still htb
    · exact ⟨engineCleared_commit _ r, .inl ⟨commit_done _ r, hturn⟩⟩
    · exact ⟨engineCleared_commit _ r, .inl ⟨commit_done _ r, hturn⟩⟩
  | access _ hserved =>
    cases hserved with
    | notServed | read => exact still htb
    | write off v =>
      obtain hw | hw | hw | hw | hw := writeReg_busy (s := s.taken) hb (regAt off) v <;>
        simp only [State.busWrite, hw] at htb ⊢
      · exact still htb
      · exact still htb
      · exact still htb
      · exact still htb
      · exact ⟨⟨rfl, rfl, rfl⟩, .inr rfl⟩
  | candidate w =>
    obtain ⟨-, ho⟩ | ⟨-, ho⟩ := offer_cases s.taken w <;> rw [ho] at htb <;> exact still htb
  | candidateInReset => exact still htb
  | resetPin b => exact ⟨⟨rfl, rfl, rfl⟩, .inr rfl⟩

theorem execSign_of_waits {rd ra : FReg} {s : State} (h : SignWaits rd ra s) (rb : FReg) :
    execSign rd ra rb s = .next s := by
  obtain ⟨hpair, hscalar, hport, hwait⟩ := h
  simp [execSign, signFromPort, hpair, hscalar, hport, hwait]

/-- An executing SIGN waits just when the engine awaits a candidate. -/
theorem signWaits_iff_awaitsCandidate {s : State} {rd ra rb : FReg} (hb : s.busy = true)
    (hd : decode s.lcmd = .ok (.sign rd ra rb)) : SignWaits rd ra s ↔ s.awaitsCandidate = true := by
  rw [awaitsCandidate_iff, signsFromPort_iff, ← pickNonce_eq_wait_iff]
  constructor
  · rintro ⟨-, hscalar, hport, hwait⟩
    exact ⟨⟨hb, hport, rd, ra, rb, hd, hscalar⟩, hwait⟩
  · rintro ⟨⟨-, hport, rd', ra', rb', hd', hscalar⟩, hwait⟩
    obtain ⟨rfl, rfl, rfl⟩ : rd = rd' ∧ ra = ra' ∧ rb = rb' := by simpa [hd] using hd'
    obtain ⟨hpair, -⟩ := encode_of_decode hd
    exact ⟨hpair, hscalar, hport, hwait⟩

/-- Settles O13: a command commits or is a SIGN that waits, and an executing one waits only where it awaits a candidate. -/
theorem everyCommandCommitsOrWaits : Obligations.EveryCommandCommitsOrWaits := by
  unfold Obligations.EveryCommandCommitsOrWaits
  constructor
  · intro i s
    obtain ⟨t, ht, hexec⟩ := exec_executes i s
    cases hexec with
    | commit | sign | oddPair => exact .inl ⟨_, ht, commit_busy _ _, commit_done _ _⟩
    | waits hw =>
      obtain ⟨-, -, hport, hwait⟩ := hw
      exact .inr ⟨_, _, _, rfl, hport, ((pickNonce_eq_wait_iff _ _).1 hwait).1, ht⟩
  · intro s hb hr hin
    rw [step_of_empty hin]
    constructor
    · intro ha
      cases hd : decode s.lcmd with
      | error e => exact ⟨_, engineStep_of_decode_error hb hr hd, commit_busy _ _, commit_done _ _⟩
      | ok i =>
        rw [engineStep_of_decode_ok hb hr hd]
        obtain ⟨t, ht, hexec⟩ := exec_executes i s
        cases hexec with
        | commit | sign | oddPair => exact ⟨_, ht, commit_busy _ _, commit_done _ _⟩
        | waits hw => exact absurd (ha.symm.trans ((signWaits_iff_awaitsCandidate hb hd).1 hw)) (by decide)
    · intro ha
      obtain ⟨-, -, rd, ra, rb, hd, -⟩ := (signsFromPort_iff s).1 ((awaitsCandidate_iff s).1 ha).1
      rw [engineStep_of_decode_ok hb hr hd]
      exact execSign_of_waits ((signWaits_iff_awaitsCandidate hb hd).2 ha) rb

end Sys2Proof.Machine
end

section
/-! SUPPORT. What every command leaves, and what it writes (rules R14, R58, R70, R95, R101, R103), read off its outcomes. -/

namespace Sys2Proof.Machine

/-! ### Destinations -/

theorem dests_of_fieldCommand {i : Instr} {m : Modulus} {rd : FReg} (h : FieldCommand i m rd) :
    destF i = [rd] ∧ destP i = [] := by
  cases h <;> exact ⟨rfl, rfl⟩

theorem dests_of_pointCommand {i : Instr} {rd : PReg} (h : PointCommand i rd) : destF i = [] ∧ destP i = [rd] := by
  cases h <;> exact ⟨rfl, rfl⟩

theorem pointCommand_of_mem_destP {i : Instr} {j : PReg} (h : j ∈ destP i) : PointCommand i j := by
  cases i with
  | pdbl | padd | pldg | smul | derive =>
    obtain rfl := List.mem_singleton.1 h
    constructor
  | nop | fadd | fsub | fmul | finv | pchk | peq | sign => cases h

theorem fieldsBut_commitSign_signed (s : State) (rd : FReg) (r v : Nat) :
    FieldsBut s (s.commitSign (.ok ⟨[.field rd r, .field (pairSecond rd) v], none, none⟩)) [rd, pairSecond rd] := by
  intro i hi
  obtain ⟨h1, h2⟩ : i ≠ rd ∧ i ≠ pairSecond rd := by simpa using hi
  have hne1 : rd.val ≠ i.val := fun h => h1 (Fin.ext h.symm)
  have hne2 : (pairSecond rd).val ≠ i.val := fun h => h2 (Fin.ext h.symm)
  simp [State.applyWrites, State.applyWrite, Vector.getElem_set_ne _ _ hne1, Vector.getElem_set_ne _ _ hne2]

/-! ### The frame -/

/-- Which registers and flags a command may change (rules R22, R58). -/
structure RegisterFrame (i : Instr) (s t : State) : Prop where
  fields : FieldsBut s t (destF i)
  points : PointsBut s t (destP i)
  nonce : isSign i = false → t.nonce = s.nonce
  onCurve : t.onCurveFlag ≠ s.onCurveFlag → t.err = none ∧ ∃ ra, i = .pchk ra
  eq : t.eqFlag ≠ s.eqFlag → t.err = none ∧ ∃ ra rb, i = .peq ra rb

/-- What changes no flag needs a frame for the registers alone. -/
theorem registerFrame_of_keepsFlags {i : Instr} {s t : State} (hf : FieldsBut s t (destF i))
    (hp : PointsBut s t (destP i)) (hn : isSign i = false → t.nonce = s.nonce) (hflags : KeepsFlags s t) :
    RegisterFrame i s t :=
  ⟨hf, hp, hn, fun h => absurd hflags.1 h, fun h => absurd hflags.2 h⟩

theorem registerFrame_of_unchanged (i : Instr) {s t : State} (hf : t.f = s.f) (hx : t.x = s.x) (hy : t.y = s.y)
    (hinf : t.inf = s.inf) (hn : isSign i = false → t.nonce = s.nonce) (hflags : KeepsFlags s t) :
    RegisterFrame i s t :=
  registerFrame_of_keepsFlags (fieldsBut_of_eq hf _) (pointsBut_of_eq hx hy hinf _) hn hflags

theorem registerFrame_of_commits {i : Instr} {s : State} {r : Except CmdError Staged} (h : Commits s i r) :
    RegisterFrame i s (s.commit r) := by
  have nonce (_ : isSign i = false) : (s.commit r).nonce = s.nonce := commit_nonce s r
  cases h with
  | nop | divZero | invalidScalar => exact registerFrame_of_unchanged _ rfl rfl rfl rfl nonce ⟨rfl, rfl⟩
  | field hi =>
    obtain ⟨hf, hp⟩ := dests_of_fieldCommand hi
    obtain ⟨-, hflags, -, hfields, hpoints⟩ := commandFrame_commit_stageF s _ _
    exact registerFrame_of_keepsFlags (hf ▸ hfields) (hp ▸ hpoints) nonce hflags
  | point hi =>
    obtain ⟨hf, hp⟩ := dests_of_pointCommand hi
    obtain ⟨-, hflags, -, hfields, hpoints⟩ := commandFrame_commit_stageP s _ _
    exact registerFrame_of_keepsFlags (hf ▸ hfields) (hp ▸ hpoints) nonce hflags
  | pchk ra b =>
    exact ⟨fieldsBut_of_eq rfl _, pointsBut_of_eq rfl rfl rfl _, nonce, fun _ => ⟨rfl, ra, rfl⟩,
      fun h => absurd rfl h⟩
  | peq ra rb b =>
    exact ⟨fieldsBut_of_eq rfl _, pointsBut_of_eq rfl rfl rfl _, nonce, fun h => absurd rfl h,
      fun _ => ⟨rfl, ra, rb, rfl⟩⟩

theorem registerFrame_of_executes {i : Instr} {s t : State} (h : Executes s i t) : RegisterFrame i s t := by
  cases h with
  | commit hr => exact registerFrame_of_commits hr
  | sign _ hr =>
    cases hr with
    | signed =>
      exact registerFrame_of_keepsFlags (fieldsBut_commitSign_signed s _ _ _) (pointsBut_of_eq rfl rfl rfl _) nofun
        ⟨rfl, rfl⟩
    | invalidScalar | sigDegenerate | entropyFail => exact registerFrame_of_unchanged _ rfl rfl rfl rfl nofun ⟨rfl, rfl⟩
  | oddPair => exact registerFrame_of_unchanged _ rfl rfl rfl rfl nofun ⟨rfl, rfl⟩
  | waits => exact registerFrame_of_unchanged _ rfl rfl rfl rfl nofun ⟨rfl, rfl⟩

/-- What every command leaves of the control registers, the reset input and the model's own fields (rule R58). -/
theorem control_of_executes {i : Instr} {s t : State} (h : Executes s i t) :
    t.ie = s.ie ∧ t.nsrc = s.nsrc ∧ t.werr = s.werr ∧ t.cmdLast = s.cmdLast ∧ t.inReset = s.inReset ∧
      t.inbox = s.inbox ∧ t.resp = s.resp := by
  cases h with
  | commit | sign => simp
  | oddPair => exact ⟨rfl, rfl, rfl, rfl, rfl, rfl, rfl⟩
  | waits => exact ⟨rfl, rfl, rfl, rfl, rfl, rfl, rfl⟩

theorem cleared_of_executes {i : Instr} {s t : State} (h : Executes s i t) :
    EngineCleared t ∨ (isSign i = true ∧ t = s) := by
  cases h with
  | commit | sign | oddPair => exact .inl (engineCleared_commit s _)
  | waits => exact .inr ⟨rfl, rfl⟩

/-- The words of the window but STATUS, PINF of a command that writes a point, and the destinations' words. -/
theorem readReg_of_registerFrame {i : Instr} {s t : State} (h : RegisterFrame i s t) (hie : t.ie = s.ie)
    (hnsrc : t.nsrc = s.nsrc) (hcmd : t.cmdLast = s.cmdLast) {r : Reg} (hstatus : r ≠ .status)
    (hpinf : r = .pinf → destP i = []) (hf : ∀ d ∈ destF i, ∀ k, r ≠ .f d k)
    (hp : ∀ j ∈ destP i, ∀ k, r ≠ .x j k ∧ r ≠ .y j k) : t.readReg r = s.readReg r := by
  obtain ⟨hfields, hpoints, -, -, -⟩ := h
  cases r with
  | id | version | nonce | const | reserved => rfl
  | status => exact absurd rfl hstatus
  | ctrl => simp only [State.readReg, State.ctrlWord, hie, hnsrc]
  | cmd => exact hcmd
  | pinf =>
    have hinf (j : PReg) : t.inf[j.val] = s.inf[j.val] := by
      obtain ⟨-, -, hj⟩ := hpoints j (by simp [hpinf rfl])
      exact hj
    have h0 := hinf 0
    have h1 := hinf 1
    have h2 := hinf 2
    have h3 := hinf 3
    simp_all [State.readReg, State.pinfWord]
  | f d k => simp only [State.readReg, hfields d fun hd => hf d hd k rfl]
  | x j k =>
    obtain ⟨hx, -, -⟩ := hpoints j fun hj => (hp j hj k).1 rfl
    simp only [State.readReg, hx]
  | y j k =>
    obtain ⟨-, hy, -⟩ := hpoints j fun hj => (hp j hj k).2 rfl
    simp only [State.readReg, hy]

/-- Settles O14: the frame of each outcome, and what the bus reads of it. -/
theorem commandFrameOfEveryCommand : Obligations.CommandFrameOfEveryCommand := by
  unfold Obligations.CommandFrameOfEveryCommand
  intro i s t ht
  have hexec := executes_of_exec ht
  have hframe := registerFrame_of_executes hexec
  obtain ⟨hie, hnsrc, hwerr, hcmd, hreset, hinbox, hresp⟩ := control_of_executes hexec
  exact ⟨hframe.fields, hframe.points, hframe.nonce, hframe.onCurve, hframe.eq, hie, hnsrc, hwerr, hcmd, hreset, hinbox,
    hresp, cleared_of_executes hexec, fun off => readReg_of_registerFrame hframe hie hnsrc hcmd⟩

/-! ### Errors -/

theorem isSign_of_commits {s : State} {i : Instr} {r : Except CmdError Staged} (h : Commits s i r) :
    isSign i = false := by
  cases h with
  | nop | divZero | pchk | peq => rfl
  | field hi => cases hi <;> rfl
  | point hi => cases hi <;> rfl
  | invalidScalar hi => cases hi <;> rfl

/-- A well-formed command that leaves the engine idle with an error has committed it. -/
theorem error_of_executes {i : Instr} {s t : State} {e : CmdError} (h : Executes s i t) (hwf : i.wellFormed = true)
    (hb : s.busy = true) (htb : t.busy = false) (herr : t.err = some e) :
    (Commits s i (.error e) ∧ t = s.commit (.error e)) ∨
      ∃ rd ra rb, i = .sign rd ra rb ∧ SignCommits rd (.error e) ∧ t = s.commitSign (.error e) := by
  cases h with
  | @commit _ r hr =>
    cases r with
    | ok => cases herr
    | error e' =>
      obtain rfl := Option.some.inj herr
      exact .inl ⟨hr, rfl⟩
  | @sign rd ra rb r _ hr =>
    cases r with
    | ok => cases herr
    | error e' =>
      obtain rfl := Option.some.inj herr
      exact .inr ⟨rd, ra, rb, rfl, hr, rfl⟩
  | oddPair hodd => exact absurd (hodd.symm.trans hwf) (by decide)
  | waits => exact absurd (hb.symm.trans htb) (by decide)

/-- Settles O15: an error's commit is `finish` alone, and SIGN's clears NONCE. -/
theorem errorsArePrecise : Obligations.ErrorsArePrecise := by
  unfold Obligations.ErrorsArePrecise
  intro i s t e hwf hb ht htb herr
  obtain ⟨hr, rfl⟩ | ⟨rd, ra, rb, rfl, -, rfl⟩ := error_of_executes (executes_of_exec ht) hwf hb htb herr
  · rw [isSign_of_commits hr]
    rfl
  · rfl

/-- Settles O31: the errors among the outcomes. -/
theorem errorCodesByCommand : Obligations.ErrorCodesByCommand := by
  unfold Obligations.ErrorCodesByCommand
  intro i s t e hwf hb ht htb herr
  obtain ⟨hr, -⟩ | ⟨rd, ra, rb, rfl, hr, -⟩ := error_of_executes (executes_of_exec ht) hwf hb htb herr
  · cases hr with
    | divZero m rd ra => exact .inl ⟨rfl, m, rd, ra, rfl⟩
    | invalidScalar hi =>
      cases hi with
      | smul rd ra rb => exact .inr (.inl ⟨rfl, .inl ⟨rd, ra, rb, rfl⟩⟩)
      | derive rd ra => exact .inr (.inl ⟨rfl, .inr (.inl ⟨rd, ra, rfl⟩)⟩)
  · cases hr with
    | invalidScalar => exact .inr (.inl ⟨rfl, .inr (.inr rfl)⟩)
    | sigDegenerate => exact .inr (.inr ⟨.inl rfl, rfl⟩)
    | entropyFail => exact .inr (.inr ⟨.inr rfl, rfl⟩)

/-! ### Results -/

/-- A command that leaves the engine idle without error has committed its writes. -/
theorem success_of_executes {i : Instr} {s t : State} (h : Executes s i t) (hb : s.busy = true) (htb : t.busy = false)
    (herr : t.err = none) :
    (∃ st, Commits s i (.ok st) ∧ t = s.commit (.ok st)) ∨
      ∃ rd ra rb st, i = .sign rd ra rb ∧ FReg.isPair rd = true ∧ SignCommits rd (.ok st) ∧
        t = s.commitSign (.ok st) := by
  cases h with
  | @commit _ r hr =>
    cases r with
    | ok st => exact .inl ⟨st, hr, rfl⟩
    | error e => cases herr
  | @sign rd ra rb r hpair hr =>
    cases r with
    | ok st => exact .inr ⟨rd, ra, rb, st, rfl, hpair, hr, rfl⟩
    | error e => cases herr
  | oddPair => cases herr
  | waits => exact absurd (hb.symm.trans htb) (by decide)

theorem staged_of_fieldCommand {s : State} {i : Instr} {m : Modulus} {rd : FReg} {st : Staged}
    (h : Commits s i (.ok st)) (hi : FieldCommand i m rd) : ∃ v, v < activeModulus m ∧ st = stageF rd v := by
  cases h with
  | field hi' hv => cases hi <;> cases hi' <;> exact ⟨_, hv, rfl⟩
  | point hi' => cases hi <;> cases hi'
  | nop | pchk | peq => cases hi

theorem staged_of_pointCommand {s : State} {i : Instr} {rd : PReg} {st : Staged} (h : Commits s i (.ok st))
    (hi : PointCommand i rd) : ∃ q, Reduced Config.curve q ∧ st = stageP rd q := by
  cases h with
  | point hi' hq => cases hi <;> cases hi' <;> exact ⟨_, hq, rfl⟩
  | field hi' => cases hi <;> cases hi'
  | nop | pchk | peq => cases hi

/-- A register that holds a reduced value is canonical (rules R14, R16). -/
theorem canonical_of_holdsPoint {t : State} {j : PReg} {q : Point} (hq : Reduced Config.curve q)
    (h : HoldsPoint t j q) : t.x[j.val].toNat < Config.curve.p ∧ t.y[j.val].toNat < Config.curve.p ∧
      (t.inf[j.val] = true → t.x[j.val] = 0#256 ∧ t.y[j.val] = 0#256) := by
  cases q with
  | inf =>
    obtain ⟨-, hx, hy⟩ := h
    rw [hx, hy]
    exact ⟨p_prime.pos, p_prime.pos, fun _ => ⟨rfl, rfl⟩⟩
  | aff x y =>
    obtain ⟨hinf, hx, hy⟩ := h
    obtain ⟨hxp, hyp⟩ := hq
    exact ⟨hx ▸ hxp, hy ▸ hyp, fun h => absurd (hinf.symm.trans h) (by decide)⟩

/-- Rule R96: in a pair the second register is the next one. -/
theorem pairSecond_val {rd : FReg} (h : FReg.isPair rd = true) : (pairSecond rd).val = rd.val + 1 := by
  revert rd; decide

/-- What a signature's registers hold. -/
theorem commitSign_signed_f (s : State) {rd : FReg} (h : FReg.isPair rd = true) {r v : Nat} (hr : r < Config.curve.n)
    (hv : v < Config.curve.n) :
    (s.commitSign (.ok ⟨[.field rd r, .field (pairSecond rd) v], none, none⟩)).f[rd.val].toNat = r ∧
      (s.commitSign (.ok ⟨[.field rd r, .field (pairSecond rd) v], none, none⟩)).f[(pairSecond rd).val].toNat = v := by
  have hne : (pairSecond rd).val ≠ rd.val := by
    rw [pairSecond_val h]
    omega
  have hr' : (BitVec.ofNat 256 r).toNat = r := toNat_ofNat_of_lt_activeModulus (m := .n) hr
  have hv' : (BitVec.ofNat 256 v).toNat = v := toNat_ofNat_of_lt_activeModulus (m := .n) hv
  constructor
  · simp [State.applyWrites, State.applyWrite, Vector.getElem_set_ne _ _ hne, hr', -BitVec.toNat_ofNat]
  · simp [State.applyWrites, State.applyWrite, hv', -BitVec.toNat_ofNat]

theorem fieldCommand_of_eq {i : Instr} {m : Modulus} {rd : FReg}
    (h : ∃ ra rb, i = .fadd m rd ra rb ∨ i = .fsub m rd ra rb ∨ i = .fmul m rd ra rb ∨ i = .finv m rd ra) :
    FieldCommand i m rd := by
  obtain ⟨ra, rb, rfl | rfl | rfl | rfl⟩ := h <;> constructor

/-- Settles O16: the staged results of each kind of command, as the registers hold them. -/
theorem commandResultsAreCanonical : Obligations.CommandResultsAreCanonical := by
  unfold Obligations.CommandResultsAreCanonical
  intro i s t hb ht htb herr
  obtain ⟨st, hr, rfl⟩ | ⟨rd, ra, rb, st, rfl, hpair, hr, rfl⟩ := success_of_executes (executes_of_exec ht) hb htb herr
  · refine ⟨fun j hj => ?points, fun m rd hi => ?fields, ?sign⟩
    case points =>
      obtain ⟨q, hq, rfl⟩ := staged_of_pointCommand hr (pointCommand_of_mem_destP hj)
      exact canonical_of_holdsPoint hq (holdsPoint_commit_stageP s j hq)
    case fields =>
      obtain ⟨v, hv, rfl⟩ := staged_of_fieldCommand hr (fieldCommand_of_eq hi)
      rwa [commit_stageF_dest s rd hv]
    case sign =>
      rintro rd ra rb rfl
      cases isSign_of_commits hr
  · refine ⟨nofun, fun m rd' hi => ?_, ?_⟩
    · cases fieldCommand_of_eq hi
    · rintro _ _ _ ⟨⟩ d hd
      cases hr with
      | signed hr hrn hv hvn =>
        obtain ⟨hfr, hfv⟩ := commitSign_signed_f s hpair hrn hvn
        obtain rfl | rfl : d = rd ∨ d = pairSecond rd := by simpa using hd
        · rw [hfr]
          exact ⟨hr, hrn⟩
        · rw [hfv]
          exact ⟨hv, hvn⟩

end Sys2Proof.Machine
end

section
/-! SUPPORT. The window as the bus reads it (rules R17 to R24, R30 to R34, R101). -/

namespace Sys2Proof.Machine

/-! ### Words and bytes of a 256-bit value -/

/-- Rule R32: word `k` as a number. -/
theorem toNat_wideWord (r : Wide) (k : Fin 8) : (wideWord r k).toNat = r.toNat / 2 ^ (224 - 32 * k.val) % 2 ^ 32 :=
  toNat_extract r _ 32

theorem toNat_wideByte (r : Wide) (k : Nat) : (wideByte r k).toNat = r.toNat / 2 ^ (248 - 8 * k) % 256 :=
  toNat_extract r _ 8

/-- Rules R32, R33: byte `k` is a byte of word k/4. -/
theorem wideByte_eq_extract_wideWord (r : Wide) {k : Nat} (hk : k < 32) :
    wideByte r k = (wideWord r ⟨k / 4, by omega⟩).extractLsb' (24 - 8 * (k % 4)) 8 := by
  apply BitVec.eq_of_getLsbD_eq
  intro i hi
  have hbit : 24 - 8 * (k % 4) + i < 32 := by omega
  have hpos : 248 - 8 * k + i = 224 - 32 * (k / 4) + (24 - 8 * (k % 4) + i) := by omega
  rw [wideByte, BitVec.getLsbD_extractLsb', BitVec.getLsbD_extractLsb', getLsbD_wideWord _ _ _ hbit, hpos]

theorem length_be32 (r : Wide) : (be32 r).length = 32 := by simp [be32]

theorem getElem?_be32 (r : Wide) {k : Nat} (hk : k < 32) : (be32 r)[k]? = some (wideByte r k) := by
  simp [be32, List.getElem?_range hk]

/-- Settles O25: the bytes as numbers, and the three parts of the encoding of rule R34 by their places. -/
theorem byteEncodings : Obligations.ByteEncodings := by
  unfold Obligations.ByteEncodings
  refine ⟨fun r k => ⟨getElem?_be32 r k.isLt, toNat_wideByte r k, ?_⟩, fun s j => ⟨fun hinf => ?_, fun hinf => ?_⟩⟩
  · rw [wideByte_eq_extract_wideWord r k.isLt]
    exact toNat_extract _ _ 8
  · simp [State.publicKey, hinf]
  · refine ⟨0x04#8 :: (be32 s.x[j.val] ++ be32 s.y[j.val]), by simp [State.publicKey, hinf], ?_, rfl, fun k => ?_⟩
    · simp [length_be32]
    · have hx : 1 + k.val = k.val + 1 := by omega
      have hy : 33 + k.val = (32 + k.val) + 1 := by omega
      have hlen := length_be32 s.x[j.val]
      rw [hx, hy, List.getElem?_cons_succ, List.getElem?_cons_succ,
        List.getElem?_append_left (hlen.symm ▸ k.isLt), List.getElem?_append_right (by omega), hlen,
        Nat.add_sub_cancel_left]
      exact ⟨getElem?_be32 _ k.isLt, getElem?_be32 _ k.isLt⟩

/-! ### The register map -/

/-- The constants fill the offsets from 0x500 (rule R30). -/
theorem regAt_const (q : Fin 6) (k : Fin 8) :
    regAt (0x500 + 0x20 * q.val + 4 * k.val) = .const (constantAt q.val) k := by
  revert q k; decide

/-- Rules R30, R31: the offsets between NONCE and the constants, and those after them, are reserved. -/
theorem regAt_high_reserved {off : Nat} (h : (0x420 ≤ off ∧ off < 0x500) ∨ 0x5C0 ≤ off) : regAt off = .reserved := by
  unfold regAt
  rw [if_neg (by omega), if_neg (by omega), if_neg (by omega), if_neg (by omega)]
  split
  · rfl
  · rw [if_neg (by omega)]

/-- A constant's word as a number. -/
theorem toNat_busRead_const (s : State) (q : Fin 6) (k : Fin 8) {v : Nat}
    (hv : constantValue Config.curve (constantAt q.val) = BitVec.ofNat 256 v) (hlt : v < 2 ^ 256) :
    (s.busRead (0x500 + 0x20 * q.val + 4 * k.val)).toNat = v / 2 ^ (224 - 32 * k.val) % 2 ^ 32 := by
  rw [State.busRead, regAt_const, State.readReg, toNat_wideWord, hv, BitVec.toNat_ofNat, Nat.mod_eq_of_lt hlt]

/-- Settles O18: what stands at each offset, and its words as numbers. -/
theorem windowReadsTheRegisterMap : Obligations.WindowReadsTheRegisterMap := by
  unfold Obligations.WindowReadsTheRegisterMap
  intro s
  refine ⟨rfl, rfl, rfl, rfl, rfl, rfl, fun i k => ?f, fun j k => ⟨?x, ?y⟩, fun k => ⟨?nonce, ?p, ?a, ?b, ?n, ?gx, ?gy⟩,
    fun off h _ => ?reserved⟩
  case f => rw [State.busRead, regAt_f, State.readReg, toNat_wideWord]
  case x => rw [State.busRead, regAt_x, State.readReg, toNat_wideWord]
  case y => rw [State.busRead, regAt_y, State.readReg, toNat_wideWord]
  case nonce => rw [State.busRead, regAt_nonce, State.readReg]
  case p => exact toNat_busRead_const s 0 k rfl (by decide)
  case a => exact toNat_busRead_const s 1 k rfl (by decide)
  case b => exact toNat_busRead_const s 2 k rfl (by decide)
  case n => exact toNat_busRead_const s 3 k rfl (by decide)
  case gx => exact toNat_busRead_const s 4 k rfl (by decide)
  case gy => exact toNat_busRead_const s 5 k rfl (by decide)
  case reserved =>
    have hreg : regAt off = .reserved := by
      obtain ⟨hlo, hhi⟩ | h | ⟨hlo, -⟩ := h
      · exact regAt_low_reserved hlo hhi
      · exact regAt_high_reserved (.inl h)
      · exact regAt_high_reserved (.inr hlo)
    rw [State.busRead, hreg, State.readReg]

/-! ### The control words, bit by bit -/

theorem getLsbD_bitAt (b : Bool) {i : Nat} (hi : i < 32) (j : Nat) : (bitAt b i).getLsbD j = (b && decide (j = i)) := by
  cases b with
  | false => simp [bitAt]
  | true =>
    have hbit : (bitAt true i).getLsbD j = (decide (j < 32) && !decide (j < i) && decide (j - i = 0)) := by
      simp only [bitAt, if_true, BitVec.getLsbD_shiftLeft, BitVec.getLsbD_one]
      simp
    rw [hbit, Bool.true_and, Bool.eq_iff_iff]
    simp only [Bool.and_eq_true, Bool.not_eq_true', decide_eq_true_eq, decide_eq_false_iff_not]
    omega

theorem getLsbD_errField (e : Option CmdError) (j : Nat) :
    ((errCode e).setWidth 32 <<< 4).getLsbD j = (decide (4 ≤ j) && (errCode e).getLsbD (j - 4)) := by
  by_cases hj : j < 8
  · have h32 : j < 32 := by omega
    have hj4 : j - 4 < 32 := by omega
    have h4 : (!decide (j < 4)) = decide (4 ≤ j) := by simp only [← decide_not, Nat.not_lt]
    simp only [BitVec.getLsbD_shiftLeft, BitVec.getLsbD_setWidth, h32, hj4, h4, decide_true, Bool.true_and]
  · have hcode : (errCode e).getLsbD (j - 4) = false := BitVec.getLsbD_of_ge _ _ (by omega)
    simp [hcode]

theorem getLsbD_ctrlWord (s : State) (b : Nat) :
    s.ctrlWord.getLsbD b = (s.ie && decide (b = 0) || s.nsrc && decide (b = 1)) := by
  simp only [State.ctrlWord, BitVec.getLsbD_or, getLsbD_bitAt, Nat.reduceLT]

theorem getLsbD_statusWord (s : State) (b : Nat) :
    s.statusWord.getLsbD b = (s.busy && decide (b = 0) || s.done && decide (b = 1) ||
      decide (4 ≤ b) && (errCode s.err).getLsbD (b - 4) || s.onCurveFlag && decide (b = 8) ||
      s.eqFlag && decide (b = 9) || s.werr && decide (b = 16)) := by
  simp only [State.statusWord, BitVec.getLsbD_or, getLsbD_bitAt, getLsbD_errField, Nat.reduceLT]

/-- Outside ERR's four bits. -/
theorem getLsbD_statusWord_flags (s : State) {b : Nat} (hb : b < 4 ∨ 8 ≤ b) :
    s.statusWord.getLsbD b = (s.busy && decide (b = 0) || s.done && decide (b = 1) ||
      s.onCurveFlag && decide (b = 8) || s.eqFlag && decide (b = 9) || s.werr && decide (b = 16)) := by
  have herr : (decide (4 ≤ b) && (errCode s.err).getLsbD (b - 4)) = false := by
    obtain hb | hb := hb
    · simp [hb]
    · simp [BitVec.getLsbD_of_ge (errCode s.err) (b - 4) (by omega)]
  rw [getLsbD_statusWord, herr, Bool.or_false]

/-- Rule R21: ERR stands at bits 7:4. -/
theorem extract_statusWord_err (s : State) : s.statusWord.extractLsb' 4 4 = errCode s.err := by
  apply BitVec.eq_of_getLsbD_eq
  intro i hi
  have h (j : Nat) (hj : j < 4 ∨ 8 ≤ j) : decide (4 + i = j) = false := decide_eq_false (by omega)
  rw [BitVec.getLsbD_extractLsb', getLsbD_statusWord, h 0 (by omega), h 1 (by omega), h 8 (by omega), h 9 (by omega),
    h 16 (by omega)]
  simp [hi]

theorem getLsbD_pinfWord (s : State) (b : Nat) :
    s.pinfWord.getLsbD b = (s.inf[0] && decide (b = 0) || s.inf[1] && decide (b = 1) || s.inf[2] && decide (b = 2) ||
      s.inf[3] && decide (b = 3)) := by
  simp only [State.pinfWord, BitVec.getLsbD_or, getLsbD_bitAt, Nat.reduceLT]

/-- Settles O19: each word's bits, by the fields placed in it. -/
theorem controlWordsReadTheirFields : Obligations.ControlWordsReadTheirFields := by
  unfold Obligations.ControlWordsReadTheirFields
  intro s
  have hctrl : s.busRead 0x008 = s.ctrlWord := rfl
  have hstatus : s.busRead 0x00C = s.statusWord := rfl
  have hpinf : s.busRead 0x014 = s.pinfWord := rfl
  rw [hctrl, hstatus, hpinf]
  refine ⟨⟨?_, ?_, fun b hb => ?_⟩, ⟨?_, ?_, ?err, ?_, ?_, ?_, fun b hb => ?_⟩, fun j => ?flags, fun b hb => ?_⟩
  case err =>
    have herr : s.statusWord.toNat / 16 % 16 = (errCode s.err).toNat :=
      (toNat_extract s.statusWord 4 4).symm.trans (congrArg BitVec.toNat (extract_statusWord_err s))
    rw [herr]
    cases s.err with
    | none => rfl
    | some e => cases e <;> rfl
  case flags =>
    rw [getLsbD_pinfWord]
    match j with
    | 0 | 1 | 2 | 3 => simp
  · rw [getLsbD_ctrlWord]; simp
  · rw [getLsbD_ctrlWord]; simp
  · have h : b ≠ 0 ∧ b ≠ 1 := by omega
    rw [getLsbD_ctrlWord]; simp [h]
  · rw [getLsbD_statusWord_flags s (by omega)]; simp
  · rw [getLsbD_statusWord_flags s (by omega)]; simp
  · rw [getLsbD_statusWord_flags s (by omega)]; simp
  · rw [getLsbD_statusWord_flags s (by omega)]; simp
  · rw [getLsbD_statusWord_flags s (by omega)]; simp
  · have h : b ≠ 0 ∧ b ≠ 1 ∧ b ≠ 8 ∧ b ≠ 9 ∧ b ≠ 16 := by omega
    rw [getLsbD_statusWord_flags s (by omega)]; simp [h]
  · have h : b ≠ 0 ∧ b ≠ 1 ∧ b ≠ 2 ∧ b ≠ 3 := by omega
    rw [getLsbD_pinfWord]; simp [h]

end Sys2Proof.Machine
end

section
/-! SUPPORT. Writes and accesses over the bus (rules R12, R13, R20, R21, R24, R29, R31, R32, R36 to R39, R53). -/

namespace Sys2Proof.Machine

/-! ### One word -/

/-- A word of F, X or Y: a register the bus both writes and reads back. -/
def Reg.isWord : Reg → Bool
  | .f _ _ | .x _ _ | .y _ _ => true
  | .id | .version | .ctrl | .status | .cmd | .pinf | .nonce _ | .const _ _ | .reserved => false

/-- Where such a word stands (rule R30); 0 for every other register. -/
def Reg.offset : Reg → Nat
  | .f i k => 0x100 + 0x20 * i.val + 4 * k.val
  | .x j k => 0x300 + 0x40 * j.val + 4 * k.val
  | .y j k => 0x320 + 0x40 * j.val + 4 * k.val
  | .id | .version | .ctrl | .status | .cmd | .pinf | .nonce _ | .const _ _ | .reserved => 0

theorem regAt_isWord {off : Nat} (hlo : 0x100 ≤ off) (hhi : off < 0x400) : (regAt off).isWord = true := by
  unfold regAt
  rw [if_neg (by omega)]
  split
  · rfl
  · split <;> rfl

/-- An aligned offset is where its word stands, so no two offsets share one. -/
theorem offset_regAt {off : Nat} (hal : off % 4 = 0) (h : (regAt off).isWord = true) : (regAt off).offset = off := by
  revert h
  unfold regAt
  split
  · split <;> exact nofun
  · split
    · intro _
      simp only [Reg.offset, wordIndex, Fin.val_ofNat]
      omega
    · split
      · split
        · intro _
          simp only [Reg.offset, wordIndex, Fin.val_ofNat]
          omega
        · intro _
          simp only [Reg.offset, wordIndex, Fin.val_ofNat]
          omega
      · split
        · exact nofun
        · split
          · exact nofun
          · split <;> exact nofun

/-- Rule R32: the word written reads back. -/
theorem readReg_writeReg_same {s : State} (hb : s.busy = false) {r : Reg} (hr : r.isWord = true) (v : Word) :
    (s.writeReg r v).readReg r = v := by
  cases r with
  | f | x | y => simp [State.writeReg, State.readReg, unlessBusy_of_idle hb]
  | id | version | ctrl | status | cmd | pinf | nonce | const | reserved => cases hr

/-- Word `k'` of register `i'` in a file whose register `i` has word `k` replaced. -/
theorem wideWord_set_other {n : Nat} (f : Vector Wide n) {i i' : Fin n} {k k' : Fin 8} (h : ¬(i' = i ∧ k' = k))
    (v : Word) : wideWord (f.set i.val (wideSetWord f[i.val] k v))[i'.val] k' = wideWord f[i'.val] k' := by
  by_cases hi : i' = i
  · subst hi
    rw [Vector.getElem_set_self, wideWord_wideSetWord_other _ fun hk => h ⟨rfl, hk⟩]
  · rw [Vector.getElem_set_ne _ _ fun hv => hi (Fin.ext hv.symm)]

/-- Rules R12, R13, R32: every other register reads as before. -/
theorem readReg_writeReg_other {s : State} (hb : s.busy = false) {r r' : Reg} (hr : r.isWord = true) (hne : r' ≠ r)
    (v : Word) : (s.writeReg r v).readReg r' = s.readReg r' := by
  cases r with
  | f i k =>
    simp only [State.writeReg, unlessBusy_of_idle hb]
    cases r' with
    | f i' k' => exact wideWord_set_other s.f (fun h => hne (by rw [h.1, h.2])) v
    | _ => rfl
  | x j k =>
    simp only [State.writeReg, unlessBusy_of_idle hb]
    cases r' with
    | x j' k' => exact wideWord_set_other s.x (fun h => hne (by rw [h.1, h.2])) v
    | _ => rfl
  | y j k =>
    simp only [State.writeReg, unlessBusy_of_idle hb]
    cases r' with
    | y j' k' => exact wideWord_set_other s.y (fun h => hne (by rw [h.1, h.2])) v
    | _ => rfl
  | id | version | ctrl | status | cmd | pinf | nonce | const | reserved => cases hr

theorem oneWord_wideSetWord (r : Wide) (k : Fin 8) (v : Word) : OneWord r (wideSetWord r k v) k v :=
  ⟨wideWord_wideSetWord_same r k v, fun _ h => wideWord_wideSetWord_other r h v⟩

theorem busWrite_pinf {s : State} (hb : s.busy = false) (v : Word) : s.busWrite 0x014 v = s.hostPinf v :=
  unlessBusy_of_idle hb _

/-- Settles O20: an idle write by its register, and the words of the window by theirs. -/
theorem idleWriteReplacesOneWord : Obligations.IdleWriteReplacesOneWord := by
  unfold Obligations.IdleWriteReplacesOneWord
  intro s v hb
  refine ⟨fun off hal hlo hhi => ?word, ⟨_, busWrite_pinf hb v, fun j => ?flags⟩, fun k => ⟨fun i => ?f, fun j => ?x,
    fun j => ?y, ?nonce⟩⟩
  case word =>
    have hw : (regAt off).isWord = true := regAt_isWord hlo hhi
    refine ⟨readReg_writeReg_same hb hw v, fun off' hal' _ hne => readReg_writeReg_other hb hw (fun hreg => hne ?_) v⟩
    rw [← offset_regAt hal hw, ← hreg, offset_regAt hal' (hreg ▸ hw)]
  case flags =>
    match j with
    | 0 | 1 | 2 | 3 => rfl
  case f => exact ⟨_, busWrite_f hb i k v, oneWord_wideSetWord _ k v⟩
  case x => exact ⟨_, busWrite_x hb j k v, oneWord_wideSetWord _ k v⟩
  case y => exact ⟨_, busWrite_y hb j k v, oneWord_wideSetWord _ k v⟩
  case nonce => exact ⟨_, busWrite_nonce hb k v, oneWord_wideSetWord _ k v⟩

/-! ### Eight words -/

/-- Rule R32: replacing the words listed leaves those of the new value there and the old ones elsewhere. -/
theorem wideWord_foldl_wideSetWord (v : Wide) (ks : List (Fin 8)) (r : Wide) (k : Fin 8) :
    wideWord (ks.foldl (fun r k => wideSetWord r k (wideWord v k)) r) k =
      if k ∈ ks then wideWord v k else wideWord r k := by
  induction ks generalizing r with
  | nil => rfl
  | cons k' ks ih =>
    rw [List.foldl_cons, ih]
    by_cases hk : k = k'
    · subst hk
      simp
    · simp [hk, wideWord_wideSetWord_other r hk]

theorem foldl_wideSetWord_finRange (r v : Wide) :
    (List.finRange 8).foldl (fun r k => wideSetWord r k (wideWord v k)) r = v :=
  wide_ext fun k => by rw [wideWord_foldl_wideSetWord, if_pos (List.mem_finRange k)]

/-- Rule R53: where each word's write replaces that word of one register, `set s r` being `s` with that register `r`, the eight
writes leave the register whole. -/
theorem loadWide_eq {s : State} {off : Nat} {r : Wide} {set : Wide → State} (hset : set r = s)
    (hwrite : ∀ r k w, (set r).busWrite (off + 4 * k.val) w = set (wideSetWord r k w)) (v : Wide) :
    loadWide s off v = set v := by
  have writes (ks : List (Fin 8)) (r : Wide) :
      ks.foldl (fun t (k : Fin 8) => t.busWrite (off + 4 * k.val) (wideWord v k)) (set r) =
        set (ks.foldl (fun r k => wideSetWord r k (wideWord v k)) r) := by
    induction ks generalizing r with
    | nil => rfl
    | cons k ks ih => rw [List.foldl_cons, List.foldl_cons, hwrite, ih]
  rw [loadWide, ← hset, writes, foldl_wideSetWord_finRange]

/-- Settles O22: the four kinds of register, each by what one word's write does to it. -/
theorem eightWordWritesLoadARegister : Obligations.EightWordWritesLoadARegister := by
  unfold Obligations.EightWordWritesLoadARegister
  intro s v hb
  refine ⟨fun i => ?f, fun j => ?x, fun j => ?y, ?nonce⟩
  case f =>
    refine loadWide_eq (r := s.f[i.val]) (set := fun r => { s with f := s.f.set i.val r }) (by simp) (fun r k w => ?_) v
    refine (busWrite_f ?_ i k w).trans ?_
    · exact hb
    · simp [State.hostF]
  case x =>
    refine loadWide_eq (r := s.x[j.val]) (set := fun r => { s with x := s.x.set j.val r }) (by simp) (fun r k w => ?_) v
    refine (busWrite_x ?_ j k w).trans ?_
    · exact hb
    · simp [State.hostX]
  case y =>
    refine loadWide_eq (r := s.y[j.val]) (set := fun r => { s with y := s.y.set j.val r }) (by simp) (fun r k w => ?_) v
    refine (busWrite_y ?_ j k w).trans ?_
    · exact hb
    · simp [State.hostY]
  case nonce =>
    exact loadWide_eq (r := s.nonce) (set := fun r => { s with nonce := r }) rfl
      (fun r k w => busWrite_nonce (s := { s with nonce := r }) hb k w) v

/-! ### Control writes -/

theorem busWrite_ctrl (s : State) (v : Word) : s.busWrite 0x008 v = s.hostCtrl v := rfl

theorem busWrite_status (s : State) (v : Word) : s.busWrite 0x00C v = s.hostStatus v := rfl

/-- Settles O21: CTRL, STATUS, and the registers no write changes. -/
theorem controlWrites : Obligations.ControlWrites := by
  unfold Obligations.ControlWrites
  refine fun s v => ⟨fun hv => hostCtrl_of_not_srst hv s, busWrite_status s v, fun off hoff _ => ?_⟩
  exact writeReg_of_readOnly (regAt_readOnly (by omega)) s v

/-! ### Accesses as steps -/

theorem step_of_access {s : State} {a : Access} {rest : List Event} (hin : s.inbox = .access a :: rest) :
    step s = busAccess a { s with inbox := rest } := by
  rw [step_of_cons hin, taken_of_cons hin]
  rfl

/-- An access at an offset of the window, out of reset. -/
theorem addrAccess_window {s : State} {off : Nat} (hoff : off < 4096) (hr : s.inReset = false) (bytes : Nat)
    (wr : Option Word) : addrAccess s (Config.base + off) bytes wr = offsetAccess s off bytes wr := by
  simp [addrAccess, hoff, hr]

/-- Rule R115: while the reset input is asserted it is not served. -/
theorem addrAccess_inReset {s : State} {off : Nat} (hoff : off < 4096) (hr : s.inReset = true) (bytes : Nat)
    (wr : Option Word) : addrAccess s (Config.base + off) bytes wr = .next { s with resp := none } := by
  simp [addrAccess, hoff, hr]

theorem addrAccess_outside {addr : Nat} (h : addr < Config.base ∨ Config.base + 4096 ≤ addr) (s : State) (bytes : Nat)
    (wr : Option Word) : addrAccess s addr bytes wr = .fault .outsideWindow := by
  simp [addrAccess, windowOffset_outside h]

theorem offsetAccess_badWidth (s : State) (off : Nat) {bytes : Nat} (h : bytes ≠ 4) (wr : Option Word) :
    offsetAccess s off bytes wr = .fault .badWidth := if_pos h

theorem offsetAccess_misaligned (s : State) {off : Nat} (h : off % 4 ≠ 0) (wr : Option Word) :
    offsetAccess s off 4 wr = .fault .misaligned := by
  simp [offsetAccess, h]

theorem offsetAccess_read (s : State) {off : Nat} (h : off % 4 = 0) :
    offsetAccess s off 4 none = .next { s with resp := some (s.busRead off) } := by
  simp [offsetAccess, h]

theorem offsetAccess_write (s : State) {off : Nat} (h : off % 4 = 0) (v : Word) :
    offsetAccess s off 4 (some v) = .next { s.busWrite off v with resp := none } := by
  simp [offsetAccess, h]

theorem step_read {s : State} {off bytes : Nat} {rest : List Event}
    (hin : s.inbox = .access (.read (Config.base + off) bytes) :: rest) (hr : s.inReset = false) (hoff : off < 4096) :
    step s = offsetAccess { s with inbox := rest } off bytes none :=
  (step_of_access hin).trans (addrAccess_window (s := { s with inbox := rest }) hoff hr bytes none)

theorem step_write {s : State} {off bytes : Nat} {v : Word} {rest : List Event}
    (hin : s.inbox = .access (.write (Config.base + off) bytes v) :: rest) (hr : s.inReset = false)
    (hoff : off < 4096) : step s = offsetAccess { s with inbox := rest } off bytes (some v) :=
  (step_of_access hin).trans (addrAccess_window (s := { s with inbox := rest }) hoff hr bytes (some v))

/-- Settles O23: an access as a step, by its address, its width and its alignment. -/
theorem readsAreServedAndBadAccessesFault : Obligations.ReadsAreServedAndBadAccessesFault := by
  unfold Obligations.ReadsAreServedAndBadAccessesFault
  constructor
  · intro s addr bytes v rest h
    exact ⟨fun hin => (step_of_access hin).trans (addrAccess_outside h _ _ _),
      fun hin => (step_of_access hin).trans (addrAccess_outside h _ _ _)⟩
  · intro s off bytes v rest hr hoff
    constructor
    · intro hin
      have hstep := step_read hin hr hoff
      refine ⟨?_, fun hw => hstep.trans (offsetAccess_badWidth _ _ hw _), ?_⟩
      · rintro rfl hal
        exact hstep.trans (offsetAccess_read _ hal)
      · rintro rfl hal
        exact hstep.trans (offsetAccess_misaligned _ hal _)
    · intro hin
      have hstep := step_write hin hr hoff
      refine ⟨?_, fun hw => hstep.trans (offsetAccess_badWidth _ _ hw _), ?_⟩
      · rintro rfl hal
        exact hstep.trans (offsetAccess_write _ hal v)
      · rintro rfl hal
        exact hstep.trans (offsetAccess_misaligned _ hal _)

end Sys2Proof.Machine
end

section
/-! SUPPORT. Reset, the interrupt output, and what NONCE does not touch (rules R17, R28, R39, R106, R115, R116). -/

namespace Sys2Proof.Machine

/-- Rule R28: a data register reads 0 after reset. -/
theorem readReg_reset {r : Reg} (hr : r.guarded = true) (hpinf : r ≠ .pinf) : State.reset.readReg r = 0#32 := by
  have zero (k : Fin 8) : wideWord 0#256 k = 0#32 := by simp [wideWord]
  cases r with
  | f | x | y => simp [State.readReg, zero]
  | nonce | cmd => rfl
  | pinf => exact absurd rfl hpinf
  | id | version | ctrl | status | const | reserved => cases hr

/-- PINF stands below the data registers. -/
theorem regAt_ne_pinf {off : Nat} (hlo : 0x100 ≤ off) : regAt off ≠ .pinf := by
  intro h
  unfold regAt at h
  rw [if_neg (by omega)] at h
  repeat' split at h
  all_goals cases h

/-- Settles O54: the control words are evaluated, and every data word reads 0. -/
theorem resetValues : Obligations.ResetValues := by
  unfold Obligations.ResetValues
  refine ⟨rfl, rfl, rfl, rfl, rfl, rfl, fun k => ?_, rfl, rfl, rfl, rfl, rfl, fun j => readP_of_inf (by simp)⟩
  exact readReg_reset (regAt_data_guarded (by omega) (by omega)) (regAt_ne_pinf (by omega))

/-- Settles O55: an access out of reset that writes CTRL with bit 31. -/
theorem softResetIsAReset : Obligations.SoftResetIsAReset := by
  unfold Obligations.SoftResetIsAReset
  intro s v rest hin hr hv
  rw [step_write hin hr (by omega), offsetAccess_write _ rfl, busWrite_ctrl, hostCtrl_of_srst hv]
  rfl

/-- Settles O56: a change of the reset input, and each event that reaches a block in reset. -/
theorem hardwareReset : Obligations.HardwareReset := by
  unfold Obligations.HardwareReset
  intro s rest
  have event {e : Event} (hin : s.inbox = e :: rest) : step s = eventStep e { s with inbox := rest } := by
    rw [step_of_cons hin, taken_of_cons hin]
  refine ⟨fun b hin => event hin, fun hr => ⟨fun off bytes hoff hin => ?read, fun off bytes v hoff hin => ?write,
    fun hin => ?engine, fun w hin => ?candidate, fun hin => ?none⟩⟩
  case read => exact (step_of_access hin).trans (addrAccess_inReset (s := { s with inbox := rest }) hoff hr _ _)
  case write => exact (step_of_access hin).trans (addrAccess_inReset (s := { s with inbox := rest }) hoff hr _ _)
  case engine => simp [event hin, eventStep, engineStep, hr]
  case candidate => simp [event hin, eventStep, hr]
  case none => simp [step_of_empty hin, engineStep, hr]

theorem irq_of_executes {i : Instr} {s t : State} (h : Executes s i t) (hb : s.busy = true) (htb : t.busy = false) :
    t.irq = s.ie := by
  cases h with
  | commit | sign | oddPair => exact irq_commit s _
  | waits => exact absurd (hb.symm.trans htb) (by decide)

/-- Settles O57: irq over each thing that changes DONE or IE. -/
theorem interruptFollowsDone : Obligations.InterruptFollowsDone := by
  unfold Obligations.InterruptFollowsDone
  refine ⟨fun s => ?bus, fun i s t hb ht htb => irq_of_executes (executes_of_exec ht) hb htb, fun s => irq_commit s _,
    fun s v hv => ?ctrl, fun s v hv => ?status, fun s w hb => ?cmd, fun s v hv => ?srst, fun s b => rfl⟩
  case bus =>
    obtain ⟨⟨hie, -⟩, ⟨-, hdone, -⟩, -⟩ := controlWordsReadTheirFields s
    rw [hie, hdone, State.irq]
  case ctrl =>
    rw [busWrite_ctrl, hostCtrl_of_not_srst hv]
    exact ⟨rfl, rfl⟩
  case status => simp [busWrite_status, State.irq, -BitVec.getLsbD_eq_getElem, hv]
  case cmd =>
    rw [busWrite_cmd hb]
    rfl
  case srst =>
    rw [busWrite_ctrl, hostCtrl_of_srst hv]
    rfl

/-! ### NONCE -/

/-- Staged writes see neither NONCE nor LNSRC. -/
theorem applyWrites_with_nonce (s : State) (l : Bool) (v : Wide) (ws : List Write) :
    ({ s with lnsrc := l, nonce := v } : State).applyWrites ws = { s.applyWrites ws with lnsrc := l, nonce := v } := by
  induction ws generalizing s with
  | nil => rfl
  | cons w ws ih =>
    have hw : ({ s with lnsrc := l, nonce := v } : State).applyWrite w =
        { s.applyWrite w with lnsrc := l, nonce := v } := by
      cases w with
      | field => rfl
      | point j q => cases q <;> rfl
    rw [State.applyWrites, State.applyWrites, hw, ih]

/-- A commit neither sees NONCE nor LNSRC; it clears LNSRC, and only SIGN's changes NONCE. -/
theorem commit_with_nonce (s : State) (l : Bool) (v : Wide) (r : Except CmdError Staged) :
    ({ s with lnsrc := l, nonce := v } : State).commit r = { s.commit r with nonce := v } := by
  cases r with
  | ok st =>
    rw [State.commit, State.commit, applyWrites_with_nonce]
    rfl
  | error e => rfl

/-- Settles O24: no read looks at NONCE, and no outcome but SIGN's is computed from it. -/
theorem nonceIsHidden : Obligations.NonceIsHidden := by
  unfold Obligations.NonceIsHidden
  refine fun s v => ⟨fun off => busRead_congr off rfl rfl rfl rfl rfl rfl rfl, fun i t hi ht => ?_⟩
  refine ⟨(registerFrame_of_executes (executes_of_exec ht)).nonce hi, ?_⟩
  cases i with
  | sign => cases hi
  | _ =>
    obtain rfl := Host.Outcome.next.inj ht
    exact congrArg Host.Outcome.next (commit_with_nonce s s.lnsrc v _)

end Sys2Proof.Machine
end

section
/-! SUPPORT. The field, point and scalar commands by their results (rules R2, R65, R69, R76, R84 to R91). -/

namespace Sys2Proof.Machine

/-! ### Inverses -/

/-- Rule R65: under a prime modulus a number has one inverse below it. -/
theorem inverse_unique {m x i y : Nat} (hm : m.Prime) (hx : x % m ≠ 0) (hi : i < m) (hy : y < m)
    (hxi : x * i % m = 1) (hxy : x * y % m = 1) : y = i := by
  have hc : Nat.Coprime m x := (Nat.Prime.coprime_iff_not_dvd hm).2 fun hd => hx (Nat.mod_eq_zero_of_dvd hd)
  have h : x * y ≡ x * i [MOD m] := hxy.trans hxi.symm
  exact (Nat.ModEq.cancel_left_of_coprime hc h).eq_of_lt_of_lt hy hi

/-- What FINV of an operand with an inverse answers. -/
theorem exec_finv {s : State} {m : Modulus} {ra : FReg} {v : Nat} (rd : FReg)
    (h : inv s.f[ra.val].toNat (activeModulus m) = .ok v) :
    exec (.finv m rd ra) s = .next (s.commit (.ok (stageF rd v))) :=
  congrArg (fun r => commitNext s (fieldResult rd r)) h

/-- Settles O29: the inverse staged is Fermat's power, and it is the only one. -/
theorem finvCompletes : Obligations.FinvCompletes := by
  unfold Obligations.FinvCompletes
  intro m rd ra s hx
  have hprime := activeModulus_prime m
  have hinv := inv_ok _ _ hprime.pos hx
  obtain ⟨hlt, hmul⟩ := inv_spec hprime hinv
  refine ⟨_, exec_finv rd hinv, ?_⟩
  rw [commit_stageF_dest s rd hlt]
  exact ⟨rfl, hmul, fun y hy hxy => inverse_unique hprime hx hlt hy hmul hxy, commandFrame_commit_stageF s rd _⟩

/-- Settles O30: both operands are 0 under the modulus. -/
theorem finvOfZeroFails : Obligations.FinvOfZeroFails := by
  unfold Obligations.FinvOfZeroFails
  intro m rd ra s h
  have hx : s.f[ra.val].toNat % activeModulus m = 0 := by
    obtain h | h := h
    · rw [h, Nat.zero_mod]
    · rw [h, Nat.mod_self]
  exact congrArg (fun r => commitNext s (fieldResult rd r)) ((inv_error_iff _ _).2 hx)

/-! ### The base point and the group law -/

/-- Settles O1: the base point's facts, and the constants by their digits. -/
theorem basePointIsOnTheCurve : Obligations.BasePointIsOnTheCurve := by
  unfold Obligations.BasePointIsOnTheCurve
  exact ⟨onCurve_basePoint, reduced_basePoint, by decide, rfl, rfl⟩

/-- Settles O37: the base point is staged for the destination. -/
theorem pldgCompletes : Obligations.PldgCompletes := by
  unfold Obligations.PldgCompletes
  intro rd s
  exact ⟨_, rfl, holdsPoint_commit_stageP s rd reduced_basePoint, commandFrame_commit_stageP s rd _⟩

/-- Settles O38: each of the three on reduced point values. -/
theorem groupLawNeverFails : Obligations.GroupLawNeverFails := by
  unfold Obligations.GroupLawNeverFails
  intro q r hq hr
  obtain ⟨d, hd, hdred, -⟩ := ecDbl_ok hq
  obtain ⟨a, ha, hared, -⟩ := ecAdd_ok hq hr
  exact ⟨⟨d, hd, hdred⟩, ⟨a, ha, hared⟩, fun k _ => ecMul_reduced p_prime p_ne_two hq k⟩

/-! ### Double-and-add (rules R86, R87) -/

section
variable (c : Curve) (q : Point)

/-- One bit more at the low end of the scalar is one step more at the end of the loop. -/
theorem ecMulLoop_bit (b : Bool) (k i : Nat) (acc : Point) :
    ecMulLoop c (Nat.bit b k) q (i + 1) acc = (ecMulLoop c k q i acc >>= ecMulStep c q b) := by
  induction i generalizing acc with
  | zero =>
    have hstep : ecMulLoop c (Nat.bit b k) q 1 acc = ecMulStep c q b acc := by
      rw [ecMulLoop, Nat.testBit_bit_zero]
      cases ecMulStep c q b acc <;> rfl
    exact hstep
  | succ i ih =>
    rw [ecMulLoop, ecMulLoop, Nat.testBit_bit_succ]
    cases ecMulStep c q (k.testBit i) acc with
    | error e => rfl
    | ok a => exact ih a

theorem log2_bit (b : Bool) {k : Nat} (hk : 1 ≤ k) : (Nat.bit b k).log2 = k.log2 + 1 := by
  have h2 : 2 ≤ Nat.bit b k := by
    rw [Nat.bit_val]
    omega
  rw [Nat.log2_def, if_pos h2, Nat.bit_div_two]

theorem ecMul_bit (b : Bool) {k : Nat} (hk : 1 ≤ k) :
    ecMul c (Nat.bit b k) q = (ecMul c k q >>= ecMulStep c q b) := by
  rw [ecMul, log2_bit b hk, ecMulLoop_bit]
  rfl

theorem ecMul_one : ecMul c 1 q = .ok q := rfl

/-- Settles O40: an even and an odd scalar are those of one bit more. -/
theorem doubleAndAddRecurrence : Obligations.DoubleAndAddRecurrence := by
  unfold Obligations.DoubleAndAddRecurrence
  intro c q k hk
  have heven := ecMul_bit c q false hk
  have hodd := ecMul_bit c q true hk
  rw [Nat.bit_val, Bool.toNat_false, add_zero] at heven
  rw [Nat.bit_val, Bool.toNat_true] at hodd
  rw [heven, hodd]
  refine ⟨rfl, ?_, ?_⟩
  · cases ecMul c k q with
    | error e => rfl
    | ok acc =>
      have hstep : ecMulStep c q false acc = ecDbl c acc := by
        unfold ecMulStep
        cases ecDbl c acc <;> rfl
      exact hstep
  · cases ecMul c k q <;> rfl

/-- On a bit that is 0 the accumulator Inf stays. -/
theorem ecMulLoop_leading_zeros {k i : Nat} (hk : k < 2 ^ i) (d : Nat) :
    ecMulLoop c k q (i + d) .inf = ecMulLoop c k q i .inf := by
  induction d with
  | zero => rfl
  | succ d ih =>
    have hbit : k.testBit (i + d) = false :=
      Nat.testBit_lt_two_pow (hk.trans_le (Nat.pow_le_pow_right (by decide) (Nat.le_add_right i d)))
    rw [← add_assoc, ecMulLoop, hbit]
    exact ih

/-- Rule R87: the loop over more bits than the scalar has, from Inf. -/
theorem ecMulLoop_inf_eq_ecMul {k i : Nat} (hk : 1 ≤ k) (hlt : k < 2 ^ i) : ecMulLoop c k q i .inf = ecMul c k q := by
  have hk0 : k ≠ 0 := by omega
  have hi : k.log2 < i := (Nat.log2_lt hk0).2 hlt
  have htop : ecMulLoop c k q (k.log2 + 1) .inf = ecMul c k q := by
    rw [ecMulLoop, Nat.testBit_log2 hk0]
    rfl
  obtain ⟨d, rfl⟩ := Nat.exists_eq_add_of_le (Nat.succ_le_of_lt hi)
  rw [Nat.succ_eq_add_one, ecMulLoop_leading_zeros c q Nat.lt_log2_self, htop]

theorem fixedLoop_error (k i : Nat) (e : CmdError) : fixedLoop c k q i (.error e) = .error e := by
  induction i with
  | zero => rfl
  | succ i ih => exact ih

theorem fixedLoop_ok (k i : Nat) (acc : Point) : fixedLoop c k q i (.ok acc) = ecMulLoop c k q i acc := by
  induction i generalizing acc with
  | zero => rfl
  | succ i ih =>
    simp only [fixedLoop, ecMulLoop]
    cases ecMulStep c q (k.testBit i) acc with
    | error e => exact fixedLoop_error c q k i e
    | ok a => exact ih a

/-- Rule R88 (f): from Inf by Inf the accumulator stays Inf. -/
theorem ecMulLoop_inf_inf (k i : Nat) : ecMulLoop c k .inf i .inf = .ok .inf := by
  induction i with
  | zero => rfl
  | succ i ih =>
    have hstep : ecMulStep c .inf (k.testBit i) .inf = .ok .inf := by
      cases k.testBit i <;> rfl
    rw [ecMulLoop, hstep]
    exact ih

end

/-- Settles O41: the fixed loop is the loop from Inf over 256 bits. -/
theorem fixedLoopGivesTheSamePoint : Obligations.FixedLoopGivesTheSamePoint := by
  unfold Obligations.FixedLoopGivesTheSamePoint
  intro c q k hk hlt
  exact ⟨(fixedLoop_ok c q k 256 .inf).trans (ecMulLoop_inf_eq_ecMul c q hk hlt), ecMulLoop_inf_inf c k k.log2⟩

/-! ### SMUL and DERIVE -/

theorem checkedMul_of_invalid {c : Curve} {k : Nat} (h : k = 0 ∨ c.n ≤ k) (q : Point) :
    checkedMul c k q = .error .invalidScalar := by
  refine if_neg fun hv => ?_
  obtain ⟨hlo, hhi⟩ := (validScalar_iff c k).1 hv
  omega

/-- Settles O43: the range check comes first. -/
theorem invalidScalarsAreRejected : Obligations.InvalidScalarsAreRejected := by
  unfold Obligations.InvalidScalarsAreRejected
  intro rd ra rb s h
  constructor
  · exact congrArg (fun r => commitNext s (pointResult rd r)) (checkedMul_of_invalid h _)
  · exact congrArg (fun r => commitNext s (pointResult rd r)) (checkedMul_of_invalid h _)

/-- What DERIVE with a valid scalar answers. -/
theorem exec_derive_of_valid {s : State} {ra : FReg} (hlo : 1 ≤ s.f[ra.val].toNat)
    (hhi : s.f[ra.val].toNat < Config.curve.n) {q : Point}
    (hq : ecMul Config.curve s.f[ra.val].toNat (basePoint Config.curve) = .ok q) (rd : PReg) :
    exec (.derive rd ra) s = .next (s.commit (.ok (stageP rd q))) :=
  commitNext_pointResult s rd ((checkedMul_of_valid hlo hhi _).trans hq)

/-- What SMUL with a valid scalar answers. -/
theorem exec_smul_of_valid {s : State} {ra : FReg} (hlo : 1 ≤ s.f[ra.val].toNat)
    (hhi : s.f[ra.val].toNat < Config.curve.n) {rb : PReg} {q : Point}
    (hq : ecMul Config.curve s.f[ra.val].toNat (s.readP rb) = .ok q) (rd : PReg) :
    exec (.smul rd ra rb) s = .next (s.commit (.ok (stageP rd q))) :=
  commitNext_pointResult s rd ((checkedMul_of_valid hlo hhi _).trans hq)

/-- The second of two point results for one register is all that is left of them. -/
theorem commit_stageP_commit_stageP (s : State) (rd : PReg) (q q' : Point) :
    (s.commit (.ok (stageP rd q))).commit (.ok (stageP rd q')) = s.commit (.ok (stageP rd q')) := by
  cases q <;> cases q' <;>
    simp [State.commit, stageP, State.applyWrites, State.applyWrite, State.writeP, State.setFlags, State.finish]

/-- Settles O44: SMUL after PLDG reads the same scalar, and the base point. -/
theorem deriveCompletes : Obligations.DeriveCompletes := by
  unfold Obligations.DeriveCompletes
  intro rd ra s hlo hhi
  obtain ⟨q, hq, hqred, -⟩ := ecMul_ok reduced_basePoint s.f[ra.val].toNat
  have hread : (s.commit (.ok (stageP rd (basePoint Config.curve)))).readP rd = basePoint Config.curve :=
    readP_of_holdsPoint reduced_basePoint (holdsPoint_commit_stageP s rd reduced_basePoint)
  refine ⟨_, q, hq, exec_derive_of_valid hlo hhi hq rd, holdsPoint_commit_stageP s rd hqred,
    commandFrame_commit_stageP s rd q, _, rfl, ?_⟩
  have hsmul := exec_smul_of_valid (s := s.commit (.ok (stageP rd (basePoint Config.curve)))) (ra := ra) (rb := rd)
    hlo hhi (q := q) (by rw [hread]; exact hq) rd
  rwa [commit_stageP_commit_stageP] at hsmul

/-- Rule R34 of a point register just written. -/
theorem publicKey_commit_stageP_aff (s : State) (rd : PReg) (x y : Nat) :
    (s.commit (.ok (stageP rd (.aff x y)))).publicKey rd =
      some (0x04#8 :: (be32 (BitVec.ofNat 256 x) ++ be32 (BitVec.ofNat 256 y))) := by
  simp [State.publicKey, stageP, State.applyWrites, State.applyWrite]

/-- Settles O46: 1·G is G, whose bytes are evaluated. -/
theorem publicKeyOfOne : Obligations.PublicKeyOfOne := by
  unfold Obligations.PublicKeyOfOne
  intro rd ra s h
  have hscalar : s.f[ra.val].toNat = 1 := by rw [h]; rfl
  refine ⟨_, exec_derive_of_valid (by omega) (hscalar ▸ by decide) (hscalar ▸ ecMul_one _ _) rd, ?_⟩
  rw [basePoint, publicKey_commit_stageP_aff]
  rfl

end Sys2Proof.Machine
end

section
/-! SUPPORT. SIGN (rules R92 to R100): the equation of s, the nonce from NONCE or from the port, and the order of the checks. -/

namespace Sys2Proof.Machine

/-! ### s (rule R92) -/

theorem imod_congr {a b : Int} {m : Nat} (h : a ≡ b [ZMOD m]) : imod a m = imod b m := congrArg Int.toNat h

theorem imod_eq_zero_iff (a : Int) {m : Nat} (hm : 0 < m) : imod a m = 0 ↔ a ≡ 0 [ZMOD m] := by
  rw [← Int.natCast_inj, imod_cast a hm, Nat.cast_zero, Int.ModEq, Int.zero_emod]

section
variable {d k z r i : Nat}

/-- r and its inverse cancel modulo n. -/
theorem mul_inverse_modEq (hinv : r * i % Config.curve.n = 1) : (r : Int) * (i : Int) ≡ 1 [ZMOD Config.curve.n] := by
  have h : r * i ≡ 1 [MOD Config.curve.n] := hinv.trans (Nat.mod_eq_of_lt n_prime.one_lt).symm
  exact_mod_cast Int.natCast_modEq_iff.2 h

theorem signS_modEq (d k z r i : Nat) : (signS Config.curve d k z r i : Int) ≡
    ((d : Int) * (r : Int) - (k : Int) * (z : Int)) * (i : Int) [ZMOD Config.curve.n] :=
  imod_modEq _ n_prime.pos

theorem signS_lt (d k z r i : Nat) : signS Config.curve d k z r i < Config.curve.n := imod_lt _ n_prime.pos

/-- Rule R92: the equation s solves. -/
theorem signS_mul_modEq (hinv : r * i % Config.curve.n = 1) : (signS Config.curve d k z r i : Int) * (r : Int) ≡
    (d : Int) * (r : Int) - (k : Int) * (z : Int) [ZMOD Config.curve.n] :=
  calc (signS Config.curve d k z r i : Int) * (r : Int)
      ≡ ((d : Int) * (r : Int) - (k : Int) * (z : Int)) * (i : Int) * (r : Int) [ZMOD Config.curve.n] :=
        (signS_modEq d k z r i).mul_right _
    _ = ((d : Int) * (r : Int) - (k : Int) * (z : Int)) * ((r : Int) * (i : Int)) := by ring
    _ ≡ ((d : Int) * (r : Int) - (k : Int) * (z : Int)) * 1 [ZMOD Config.curve.n] :=
        (mul_inverse_modEq hinv).mul_left _
    _ = (d : Int) * (r : Int) - (k : Int) * (z : Int) := mul_one _

theorem sub_modEq_zero_iff (a b : Int) (m : Nat) : a - b ≡ 0 [ZMOD m] ↔ a ≡ b [ZMOD m] := by
  rw [Int.modEq_zero_iff_dvd, Int.modEq_iff_dvd, dvd_sub_comm]

/-- Rule R92: s is 0 just when d·r and k·z are congruent. -/
theorem signS_eq_zero_iff (hinv : r * i % Config.curve.n = 1) :
    signS Config.curve d k z r i = 0 ↔ (d : Int) * (r : Int) ≡ (k : Int) * (z : Int) [ZMOD Config.curve.n] := by
  rw [← sub_modEq_zero_iff]
  constructor
  · intro h
    have hmul := signS_mul_modEq (d := d) (k := k) (z := z) hinv
    rw [h, Nat.cast_zero, zero_mul] at hmul
    exact hmul.symm
  · intro h
    have hmul := h.mul_right (i : Int)
    rw [zero_mul] at hmul
    exact (imod_eq_zero_iff _ n_prime.pos).2 hmul

end

/-- Settles O53: s looks at z modulo n, and z ≡ 0 leaves d·r over r. -/
theorem hashIsUsedModuloN : Obligations.HashIsUsedModuloN := by
  unfold Obligations.HashIsUsedModuloN
  constructor
  · intro d k z z' hz
    have hs (r i : Nat) : signS Config.curve d k z r i = signS Config.curve d k z' r i :=
      imod_congr ((((Int.natCast_modEq_iff.2 hz).mul_left _).neg.add_left _).mul_right _)
    simp only [signCore, hs]
  · intro d k z r v hd hz hcore
    obtain ⟨u, hu, -⟩ := ecMul_ok reduced_basePoint k
    cases u with
    | inf => simp [signCore, hu] at hcore
    | aff x y =>
      obtain ⟨-, h⟩ | ⟨i, -, -, hinv, h⟩ := signCore_of_affine (d := d) (z := z) hu
      · cases h.symm.trans hcore
      · rw [h] at hcore
        split at hcore
        · cases hcore
        · obtain ⟨rfl, rfl⟩ := Prod.mk.inj (Except.ok.inj hcore)
          have hz0 : (z : Int) ≡ ((0 : Nat) : Int) [ZMOD Config.curve.n] :=
            Int.natCast_modEq_iff.2 (hz.trans (Nat.zero_mod _).symm)
          have hmod : (signS Config.curve d k z (x % Config.curve.n) i : Int) ≡ (d : Int) [ZMOD Config.curve.n] :=
            calc (signS Config.curve d k z (x % Config.curve.n) i : Int)
                ≡ ((d : Int) * ((x % Config.curve.n : Nat) : Int) - (k : Int) * (z : Int)) * (i : Int)
                    [ZMOD Config.curve.n] := signS_modEq ..
              _ ≡ ((d : Int) * ((x % Config.curve.n : Nat) : Int) - (k : Int) * ((0 : Nat) : Int)) * (i : Int)
                    [ZMOD Config.curve.n] := ((hz0.mul_left _).neg.add_left _).mul_right _
              _ = (d : Int) * (((x % Config.curve.n : Nat) : Int) * (i : Int)) := by
                rw [Nat.cast_zero]
                ring
              _ ≡ (d : Int) * 1 [ZMOD Config.curve.n] := (mul_inverse_modEq hinv).mul_left _
              _ = (d : Int) := mul_one _
          exact (Int.natCast_modEq_iff.1 hmod).eq_of_lt_of_lt (signS_lt ..) hd

/-! ### What SIGN answers (rules R93, R94, R97) -/

theorem isPair_iff (rd : FReg) : FReg.isPair rd = true ↔ rd.val % 2 = 0 := by
  simp [FReg.isPair]

section
variable {rd ra : FReg} {s : State}

/-- The scalar d is checked first. -/
theorem execSign_of_invalid (hp : FReg.isPair rd = true) (hd : validScalar Config.curve (s.scalarF ra) = false)
    (rb : FReg) : execSign rd ra rb s = .next (s.commitSign (.error .invalidScalar)) := by
  simp [execSign, hp, hd]

/-- With LNSRC = 1 the nonce is NONCE. -/
theorem execSign_of_nonce (hp : FReg.isPair rd = true) (hd : validScalar Config.curve (s.scalarF ra) = true)
    (hl : s.lnsrc = true) (hk : validScalar Config.curve s.nonce.toNat = true) (rb : FReg) :
    execSign rd ra rb s = .next (signWith rd (s.scalarF ra) s.nonce.toNat (s.scalarF rb) s) := by
  simp [execSign, signFromNonce, hp, hd, hl, hk]

theorem execSign_of_invalid_nonce (hp : FReg.isPair rd = true) (hd : validScalar Config.curve (s.scalarF ra) = true)
    (hl : s.lnsrc = true) (hk : validScalar Config.curve s.nonce.toNat = false) (rb : FReg) :
    execSign rd ra rb s = .next (s.commitSign (.error .invalidScalar)) := by
  simp [execSign, signFromNonce, hp, hd, hl, hk]

/-- With LNSRC = 0 the nonce is a candidate. -/
theorem execSign_of_take (hp : FReg.isPair rd = true) (hd : validScalar Config.curve (s.scalarF ra) = true)
    (hl : s.lnsrc = false) {k : Nat} (hk : pickNonce Config.curve Config.entMaxTries s.draws = .take k) (rb : FReg) :
    execSign rd ra rb s = .next (signWith rd (s.scalarF ra) k (s.scalarF rb) s) := by
  simp [execSign, signFromPort, hp, hd, hl, hk]

theorem execSign_of_fail (hp : FReg.isPair rd = true) (hd : validScalar Config.curve (s.scalarF ra) = true)
    (hl : s.lnsrc = false) (hk : pickNonce Config.curve Config.entMaxTries s.draws = .fail) (rb : FReg) :
    execSign rd ra rb s = .next (s.commitSign (.error .entropyFail)) := by
  simp [execSign, signFromPort, hp, hd, hl, hk]

end

theorem validScalar_eq_false {k : Nat} (h : k = 0 ∨ Config.curve.n ≤ k) : validScalar Config.curve k = false := by
  rw [Bool.eq_false_iff]
  intro hv
  obtain ⟨hlo, hhi⟩ := (validScalar_iff _ k).1 hv
  omega

theorem validScalar_eq_true {k : Nat} (hlo : 1 ≤ k) (hhi : k < Config.curve.n) : validScalar Config.curve k = true :=
  (validScalar_iff _ k).2 ⟨hlo, hhi⟩

/-- Settles O47: the commit of r and s, which solves the equation of rule R92. -/
theorem signCompletes : Obligations.SignCompletes := by
  unfold Obligations.SignCompletes
  intro rd ra rb s x y hrd hl hdlo hdhi hklo hkhi hmul hr hs
  have hp : FReg.isPair rd = true := (isPair_iff rd).2 hrd
  have hexec := execSign_of_nonce hp (validScalar_eq_true hdlo hdhi) hl (validScalar_eq_true hklo hkhi) rb
  obtain ⟨hr0, -⟩ | ⟨i, -, -, hinv, hcore⟩ := signCore_of_affine (d := s.scalarF ra) (z := s.scalarF rb) hmul
  · exact absurd hr0 hr
  have hs0 : signS Config.curve (s.scalarF ra) s.nonce.toNat (s.scalarF rb) (x % Config.curve.n) i ≠ 0 :=
    fun h => hs ((signS_eq_zero_iff hinv).1 h)
  rw [if_neg hs0] at hcore
  obtain ⟨hfr, hfv⟩ := commitSign_signed_f s hp (Nat.mod_lt x n_prime.pos) (signS_lt (s.scalarF ra) s.nonce.toNat
    (s.scalarF rb) (x % Config.curve.n) i)
  rw [signWith, hcore] at hexec
  refine ⟨_, _, _, hexec, rfl, signS_lt .., hs0, signS_mul_modEq hinv, hfr, fun rs hrs => ?second, rfl, ⟨rfl, rfl⟩,
    commitControl_commit s (.ok _), fun j hj hj' => ?others, pointsBut_of_eq rfl rfl rfl []⟩
  case second =>
    obtain rfl : rs = pairSecond rd := Fin.ext (hrs.trans (pairSecond_val hp).symm)
    exact hfv
  case others =>
    refine fieldsBut_commitSign_signed s rd _ _ j ?_
    have hj2 : j ≠ pairSecond rd := fun h => hj' (h ▸ pairSecond_val hp)
    simp [hj, hj2]

/-- Settles O48: the checks in their order. -/
theorem signErrorsInOrder : Obligations.SignErrorsInOrder := by
  unfold Obligations.SignErrorsInOrder
  intro rd ra rb s hrd
  have hp : FReg.isPair rd = true := (isPair_iff rd).2 hrd
  refine ⟨fun hd => execSign_of_invalid hp (validScalar_eq_false hd) rb, fun hdlo hdhi hl => ⟨fun hk => ?_, ?_⟩⟩
  · exact execSign_of_invalid_nonce hp (validScalar_eq_true hdlo hdhi) hl (validScalar_eq_false hk) rb
  · intro x y hklo hkhi hmul hzero
    have hexec := execSign_of_nonce hp (validScalar_eq_true hdlo hdhi) hl (validScalar_eq_true hklo hkhi) rb
    have hcore : signCore Config.curve (s.scalarF ra) s.nonce.toNat (s.scalarF rb) = .error .sigDegenerate := by
      obtain ⟨-, h⟩ | ⟨i, hr, -, hinv, h⟩ := signCore_of_affine (d := s.scalarF ra) (z := s.scalarF rb) hmul
      · exact h
      · exact h.trans (if_pos ((signS_eq_zero_iff hinv).2 (hzero.resolve_left hr)))
    rw [signWith, hcore] at hexec
    exact hexec

/-- SIGN's commit sees neither NONCE nor LNSRC. -/
theorem commitSign_with_nonce (s : State) (l : Bool) (v : Wide) (r : Except CmdError Staged) :
    ({ s with lnsrc := l, nonce := v } : State).commitSign r = s.commitSign r := by
  rw [State.commitSign, commit_with_nonce]
  rfl

/-- Settles O49: the candidate is the nonce picked, and the commit is the same. -/
theorem signTakesFirstGoodCandidate : Obligations.SignTakesFirstGoodCandidate := by
  unfold Obligations.SignTakesFirstGoodCandidate
  intro rd ra rb s t pre post w hl hdraws hlen hpre hw hexec herr
  have hk : validScalar Config.curve w.toNat = true := by simpa [rejected] using hw
  cases hp : FReg.isPair rd with
  | false =>
    have hill : exec (.sign rd ra rb) { s with lnsrc := true, nonce := w } =
        .next ({ s with lnsrc := true, nonce := w } : State).commitIllegal := by
      simp [exec, execSign, hp]
    obtain rfl := Host.Outcome.next.inj (hill.symm.trans hexec)
    exact absurd rfl herr
  | true =>
    cases hd : validScalar Config.curve (s.scalarF ra) with
    | false =>
      have hnonce := execSign_of_invalid (s := { s with lnsrc := true, nonce := w }) hp hd rb
      rw [commitSign_with_nonce] at hnonce
      exact (execSign_of_invalid hp hd rb).trans (hnonce.symm.trans hexec)
    | true =>
      have hpick : pickNonce Config.curve Config.entMaxTries s.draws = .take w.toNat := by
        have htries : Config.entMaxTries = pre.length + ((Config.entMaxTries - pre.length - 1) + 1) := by omega
        rw [htries, hdraws, pickNonce_append hpre, pickNonce, if_pos hk]
      have hnonce := execSign_of_nonce (s := { s with lnsrc := true, nonce := w }) hp hd rfl hk rb
      rw [signWith, commitSign_with_nonce] at hnonce
      exact (execSign_of_take hp hd hl hpick rb).trans (hnonce.symm.trans hexec)

/-- Settles O50: rejected candidates use up the tries. -/
theorem signWaitsThenFails : Obligations.SignWaitsThenFails := by
  unfold Obligations.SignWaitsThenFails
  intro rd ra rb s hrd hl hdlo hdhi hrej
  have hp : FReg.isPair rd = true := (isPair_iff rd).2 hrd
  have hd := validScalar_eq_true hdlo hdhi
  constructor
  · intro hlen
    exact execSign_of_waits ⟨hp, hd, hl, (pickNonce_eq_wait_iff _ _).2 ⟨hlen, hrej⟩⟩ rb
  · intro hlen
    have hfail : pickNonce Config.curve Config.entMaxTries s.draws = .fail := by
      have htake (v : Wide) (hv : v ∈ s.draws.take 4) : rejected v = true := hrej v (List.mem_of_mem_take hv)
      have h := pickNonce_append htake 0 (s.draws.drop 4)
      rw [List.take_append_drop, List.length_take, Nat.min_eq_left hlen] at h
      exact h
    exact execSign_of_fail hp hd hl hfail rb

/-! ### Candidates (rule R94) -/

/-- An offered candidate as a step, out of reset. -/
theorem step_candidate {s : State} {w : Wide} {rest : List Event} (hin : s.inbox = .candidate w :: rest)
    (hr : s.inReset = false) : step s = .next (({ s with inbox := rest } : State).offer w) := by
  rw [step_of_cons hin, taken_of_cons hin]
  simp [eventStep, hr]

/-- Settles O51: when the engine awaits a candidate, and what keeps it from awaiting one. -/
theorem candidatesAreDrawnOnlyWhenNeeded : Obligations.CandidatesAreDrawnOnlyWhenNeeded := by
  unfold Obligations.CandidatesAreDrawnOnlyWhenNeeded
  intro s w rest hin hr
  rw [step_candidate hin hr]
  have hiff := awaitsCandidate_iff { s with inbox := rest }
  rw [signsFromPort_iff] at hiff
  constructor
  · intro rd ra rb hb hd hl hscalar hrej hlen
    exact congrArg Host.Outcome.next (if_pos (hiff.2 ⟨⟨hb, hl, rd, ra, rb, hd, hscalar⟩, hlen, hrej⟩))
  · intro h
    refine congrArg Host.Outcome.next (if_neg fun hawaits => ?_)
    obtain ⟨⟨hb, hl, rd, ra, rb, hd, hscalar⟩, hlen, hrej⟩ := hiff.1 hawaits
    obtain hidle | hnonce | hfull | ⟨v, hv, hgood⟩ | hno := h
    · exact absurd (hidle.symm.trans hb) (by decide)
    · exact absurd (hnonce.symm.trans hl) (by decide)
    · exact absurd hlen (Nat.not_lt.2 hfull)
    · exact absurd (hgood.symm.trans (hrej v (List.mem_of_mem_take hv))) (by decide)
    · exact absurd ((hno rd ra rb hd).symm.trans hscalar) (by decide)

/-! ### One use of a nonce (rule R95) -/

/-- An error's commit of a SIGN whose NONCE is already 0. -/
theorem commitSign_error_of_nonce_zero {s : State} (h : s.nonce = 0#256) (e : CmdError) :
    s.commitSign (.error e) = afterError s e := by
  cases s
  subst h
  rfl

theorem execSign_of_nonce_zero {rd ra : FReg} {s : State} (hp : FReg.isPair rd = true) (hl : s.lnsrc = true)
    (hk : s.nonce = 0#256) (rb : FReg) : execSign rd ra rb s = .next (afterError s .invalidScalar) := by
  rw [← commitSign_error_of_nonce_zero hk]
  cases hd : validScalar Config.curve (s.scalarF ra) with
  | false => exact execSign_of_invalid hp hd rb
  | true => exact execSign_of_invalid_nonce hp hd hl (validScalar_eq_false (.inl (by rw [hk]; rfl))) rb

/-- Settles O52: a SIGN's commit leaves NONCE = 0, which the next one rejects. -/
theorem nonceIsUsedOnce : Obligations.NonceIsUsedOnce := by
  unfold Obligations.NonceIsUsedOnce
  intro rd ra rb rd' ra' rb' s t w hrd hrd' hb hexec htb
  have hnonce : t.nonce = 0#256 := by
    cases executes_of_exec hexec with
    | commit hr => cases isSign_of_commits hr
    | sign => rfl
    | oddPair hodd => exact absurd (hodd.symm.trans ((isPair_iff rd).2 hrd)) (by decide)
    | waits => exact absurd (hb.symm.trans htb) (by decide)
  exact ⟨hnonce, fun hnsrc => execSign_of_nonce_zero (s := t.accept w) ((isPair_iff rd').2 hrd') hnsrc hnonce rb'⟩

end Sys2Proof.Machine
end

section
/-! SUPPORT. The group of the curve (rule R88 (e)): the model's doubling and adding compute Mathlib's group law on the
Weierstrass curve over the field of p elements, so the multiples of the base point are those of a group of order n. -/

namespace Sys2Proof.Machine

open WeierstrassCurve

/-- The curve of rule R74 over its field. -/
def fieldCurve (c : Curve) : WeierstrassCurve.Affine (ZMod c.p) :=
  { a₁ := 0, a₂ := 0, a₃ := 0, a₄ := (c.a : ZMod c.p), a₆ := (c.b : ZMod c.p) }

/-- A point value stands for a point of the group. -/
inductive Represents (c : Curve) : Point → (fieldCurve c).Point → Prop
  | inf : Represents c .inf .zero
  | aff (x y : Nat) (h : (fieldCurve c).Nonsingular (x : ZMod c.p) (y : ZMod c.p)) :
      Represents c (.aff x y) (.some x y h)

variable {c : Curve}

theorem negY_fieldCurve (x y : ZMod c.p) : (fieldCurve c).negY x y = -y := by
  simp [Affine.negY, fieldCurve]

theorem addX_fieldCurve (x₁ x₂ l : ZMod c.p) : (fieldCurve c).addX x₁ x₂ l = l ^ 2 - x₁ - x₂ := by
  simp [Affine.addX, fieldCurve]

theorem addY_fieldCurve (x₁ x₂ y₁ l : ZMod c.p) :
    (fieldCurve c).addY x₁ x₂ y₁ l = l * (x₁ - (l ^ 2 - x₁ - x₂)) - y₁ := by
  rw [Affine.addY, negY_fieldCurve, Affine.negAddY, addX_fieldCurve]
  ring

theorem represents_of_eq {x y : Nat} {X Y : ZMod c.p} (hX : X = (x : ZMod c.p)) (hY : Y = (y : ZMod c.p))
    (h : (fieldCurve c).Nonsingular X Y) : Represents c (.aff x y) (.some X Y h) := by
  subst hX hY
  exact .aff x y h

/-- The last two lines of rules R72 and R73 are the group's formulas for the slope they use. -/
theorem represents_of_onLine {lam x1 y1 x2 : Nat} {q : Point} (hq : OnLine c lam x1 y1 x2 q) {l : ZMod c.p}
    (hl : l = (lam : ZMod c.p))
    (h : (fieldCurve c).Nonsingular ((fieldCurve c).addX x1 x2 l) ((fieldCurve c).addY x1 x2 y1 l)) :
    Represents c q (.some _ _ h) := by
  obtain ⟨x3, y3, rfl, -, -, hx3, hy3⟩ := hq
  have hx3' := (ZMod.intCast_eq_intCast_iff _ _ _).2 hx3
  have hy3' := (ZMod.intCast_eq_intCast_iff _ _ _).2 hy3
  push_cast at hx3' hy3'
  have hX : (fieldCurve c).addX x1 x2 l = (x3 : ZMod c.p) := by
    rw [addX_fieldCurve, hl, hx3']
  refine represents_of_eq hX ?_ h
  rw [addX_fieldCurve] at hX
  rw [addY_fieldCurve, hX, hl, hy3']

/-- Numbers below p are equal where their residues are. -/
theorem eq_of_natCast_eq {x y : Nat} (hx : x < c.p) (hy : y < c.p) (h : (x : ZMod c.p) = (y : ZMod c.p)) : x = y :=
  ((ZMod.natCast_eq_natCast_iff _ _ _).1 h).eq_of_lt_of_lt hx hy

section
variable [Fact c.p.Prime]

/-- An affine point whose y is not 0 is not its own opposite: p is odd. -/
theorem two_mul_natCast_ne_zero (h2 : c.p ≠ 2) {y : Nat} (hy : y < c.p) (hy0 : y ≠ 0) : 2 * (y : ZMod c.p) ≠ 0 := by
  intro h
  have hmod : ((2 * y : Nat) : ZMod c.p) = 0 := by exact_mod_cast h
  exact two_mul_mod_ne_zero Fact.out h2 hy0 hy (Nat.mod_eq_zero_of_dvd ((ZMod.natCast_eq_zero_iff _ _).1 hmod))

theorem natCast_ne_neg (h2 : c.p ≠ 2) {y : Nat} (hy : y < c.p) (hy0 : y ≠ 0) : (y : ZMod c.p) ≠ -(y : ZMod c.p) := by
  intro h
  refine two_mul_natCast_ne_zero h2 hy hy0 ?_
  rw [two_mul]
  exact eq_neg_iff_add_eq_zero.1 h

/-- An on-curve affine point whose y is not 0 is a point of the group. -/
theorem nonsingular_of_onCurve (h2 : c.p ≠ 2) {x y : Nat} (hy : y < c.p) (hy0 : y ≠ 0)
    (h : onCurve c (.aff x y) = true) : (fieldCurve c).Nonsingular (x : ZMod c.p) (y : ZMod c.p) := by
  have hcurve := (onCurve_aff_iff_zmod (Fact.out : c.p.Prime).pos x y).1 h
  refine (Affine.nonsingular_iff' _ _).2 ⟨(Affine.equation_iff _ _).2 ?_, .inr ?_⟩
  · simpa [fieldCurve] using hcurve
  · simpa [fieldCurve] using two_mul_natCast_ne_zero h2 hy hy0

/-- The tangent's slope of rule R72. -/
theorem represents_tangent (h2 : c.p ≠ 2) {x y : Nat} (hy : y < c.p) (hy0 : y ≠ 0) {d : Point}
    (ht : TangentPoint c x y d) (h : (fieldCurve c).Nonsingular (x : ZMod c.p) (y : ZMod c.p)) :
    Represents c d (.some _ _ h + .some _ _ h) := by
  obtain ⟨i, lam, -, hi, hlam, hline⟩ := ht
  have hneg : (y : ZMod c.p) ≠ (fieldCurve c).negY x y := by
    rw [negY_fieldCurve]
    exact natCast_ne_neg h2 hy hy0
  have h2y := two_mul_natCast_ne_zero h2 hy hy0
  have hi' := natCast_zmod_of_mod_eq hi
  have hlam' := natCast_zmod_of_mod_eq hlam.symm
  push_cast at hi' hlam'
  rw [Affine.Point.add_self_of_Y_ne hneg]
  refine represents_of_onLine hline ?_ _
  rw [Affine.slope_of_Y_ne rfl hneg, negY_fieldCurve, sub_neg_eq_add, ← two_mul, div_eq_iff h2y, ← hlam']
  simp only [fieldCurve]
  linear_combination -(3 * (x : ZMod c.p) ^ 2 + c.a) * hi'

/-- The chord's slope of rule R73. -/
theorem represents_chord {x1 y1 x2 y2 : Nat} (hx1 : x1 < c.p) (hx2 : x2 < c.p) (hx : x1 ≠ x2) {a : Point}
    (hc : ChordPoint c x1 y1 x2 y2 a) (h1 : (fieldCurve c).Nonsingular (x1 : ZMod c.p) (y1 : ZMod c.p))
    (h2 : (fieldCurve c).Nonsingular (x2 : ZMod c.p) (y2 : ZMod c.p)) :
    Represents c a (.some _ _ h1 + .some _ _ h2) := by
  obtain ⟨i, lam, -, hi, -, hlam, hline⟩ := hc
  have hne : (x1 : ZMod c.p) ≠ x2 := fun h => hx (eq_of_natCast_eq hx1 hx2 h)
  have hi' := (ZMod.intCast_eq_intCast_iff _ _ _).2 hi
  have hlam' := (ZMod.intCast_eq_intCast_iff _ _ _).2 hlam
  push_cast at hi' hlam'
  rw [Affine.Point.add_of_X_ne hne]
  refine represents_of_onLine hline ?_ _
  rw [Affine.slope_of_X_ne hne, div_eq_iff (sub_ne_zero.2 hne), hlam']
  linear_combination (y2 - y1 : ZMod c.p) * hi'

/-- Rule R72 is doubling in the group. -/
theorem represents_double (h2 : c.p ≠ 2) {q d : Point} (hq : Reduced c q) (hd : IsDouble c q d)
    {P : (fieldCurve c).Point} (hP : Represents c q P) : Represents c d (P + P) := by
  obtain ⟨hinf, hzero, htangent⟩ := hd
  cases hP with
  | inf =>
    rw [hinf rfl]
    exact .inf
  | aff x y h =>
    by_cases hy0 : y = 0
    · have hself : (y : ZMod c.p) = (fieldCurve c).negY x y := by rw [negY_fieldCurve, hy0, Nat.cast_zero, neg_zero]
      rw [hzero x (by rw [hy0]), Affine.Point.add_self_of_Y_eq hself]
      exact .inf
    · exact represents_tangent h2 hq.2 hy0 (htangent x y rfl hy0) h

/-- Rule R73 is adding in the group. -/
theorem represents_sum (h2 : c.p ≠ 2) {q r a : Point} (hq : Reduced c q) (hr : Reduced c r) (ha : IsSum c q r a)
    {P Q : (fieldCurve c).Point} (hP : Represents c q P) (hQ : Represents c r Q) : Represents c a (P + Q) := by
  obtain ⟨hleft, hright, haff⟩ := ha
  cases hP with
  | inf =>
    rw [hleft rfl]
    exact (zero_add Q).symm ▸ hQ
  | aff x1 y1 h1 =>
    cases hQ with
    | inf =>
      rw [hright x1 y1 rfl rfl]
      exact (add_zero (Affine.Point.some _ _ h1)).symm ▸ .aff x1 y1 h1
    | aff x2 y2 h2' =>
      obtain ⟨hinf, htangent, hchord⟩ := haff x1 y1 x2 y2 rfl rfl
      by_cases hx : x1 = x2
      · subst hx
        by_cases hy : y1 ≠ y2 ∨ y1 = 0
        · have hopp : (y1 : ZMod c.p) = (fieldCurve c).negY x1 y2 := by
            obtain hsame | hopp := Affine.Y_eq_of_X_eq h1.1 h2'.1 rfl
            · have hyy : y1 = y2 := eq_of_natCast_eq hq.2 hr.2 hsame
              have hy0 : y1 = 0 := hy.resolve_left fun h => h hyy
              rw [negY_fieldCurve, ← hyy, hy0, Nat.cast_zero, neg_zero]
            · exact hopp
          rw [hinf rfl hy, Affine.Point.add_of_Y_eq rfl hopp]
          exact .inf
        · have hyy : y1 = y2 := by omega
          have hy0 : y1 ≠ 0 := by omega
          subst hyy
          exact represents_tangent h2 hq.2 hy0 (htangent rfl rfl hy0) h1
      · exact represents_chord hq.1 hr.1 hx (hchord hx) h1 h2'

/-- One step of rule R86 doubles, and adds where the bit is 1. -/
theorem represents_ecMulStep (h2 : c.p ≠ 2) {q acc a : Point} (hq : Reduced c q) (hacc : Reduced c acc) {b : Bool}
    (ha : ecMulStep c q b acc = .ok a) {P A : (fieldCurve c).Point} (hP : Represents c q P) (hA : Represents c acc A) :
    Represents c a (2 • A + b.toNat • P) := by
  obtain ⟨d, hd, hdouble⟩ := ecDbl_isDouble Fact.out h2 hacc
  have hD : Represents c d (2 • A) := (two_nsmul A).symm ▸ represents_double h2 hacc hdouble hA
  cases b with
  | false =>
    obtain rfl : d = a := by simpa [ecMulStep, hd] using ha
    simpa using hD
  | true =>
    have hdred := reduced_of_isDouble hdouble
    obtain ⟨e, he, hsum⟩ := ecAdd_isSum Fact.out h2 hdred hq
    obtain rfl : e = a := by simpa [ecMulStep, hd, he] using ha
    simpa using represents_sum h2 hdred hq hsum hD hP

/-- Rule R86 is multiplying in the group. -/
theorem represents_ecMul (h2 : c.p ≠ 2) {q : Point} (hq : Reduced c q) {P : (fieldCurve c).Point}
    (hP : Represents c q P) {k : Nat} (hk : 1 ≤ k) {u : Point} (hu : ecMul c k q = .ok u) : Represents c u (k • P) := by
  induction k using Nat.binaryRecFromOne generalizing u with
  | zero => cases hk
  | one =>
    obtain rfl : q = u := Except.ok.inj ((ecMul_one c q).symm.trans hu)
    rwa [one_nsmul]
  | bit b k hk0 ih =>
    have hk1 : 1 ≤ k := Nat.pos_of_ne_zero hk0
    obtain ⟨v, hv, hvred⟩ := ecMul_reduced (c := c) Fact.out h2 hq k
    rw [ecMul_bit c q b hk1, hv] at hu
    rw [Nat.bit_val, add_nsmul, mul_nsmul']
    exact represents_ecMulStep h2 hq hvred hu hP (ih hk1 hv)

end

/-- Rule R2: n·G is Inf. A closed fact about the constants: the kernel runs the 256 steps of rule R86. -/
theorem ecMul_order : ecMul Config.curve Config.curve.n (basePoint Config.curve) = .ok .inf := by
  decide +kernel

/-- Rule R88 (e): the base point has the prime order n, so no smaller multiple of it is Inf. -/
theorem ecMul_basePoint_ne_inf {k : Nat} (hlo : 1 ≤ k) (hhi : k < Config.curve.n) :
    ecMul Config.curve k (basePoint Config.curve) ≠ .ok .inf := by
  have : Fact Config.curve.p.Prime := ⟨p_prime⟩
  have : Fact Config.curve.n.Prime := ⟨n_prime⟩
  have hns := nonsingular_of_onCurve p_ne_two reduced_basePoint.2 (by decide) onCurve_basePoint
  have hG : Represents Config.curve (basePoint Config.curve) (.some _ _ hns) := .aff _ _ hns
  have zero_of_inf {m : Nat} (hm : 1 ≤ m) (h : ecMul Config.curve m (basePoint Config.curve) = .ok .inf) :
      m • (Affine.Point.some _ _ hns) = 0 := by
    generalize hM : m • (Affine.Point.some _ _ hns) = M
    have hrep : Represents Config.curve .inf M := hM ▸ represents_ecMul p_ne_two reduced_basePoint hG hm h
    cases hrep
    rfl
  have hn := zero_of_inf n_prime.one_lt.le ecMul_order
  have horder := addOrderOf_eq_prime hn (Affine.Point.some_ne_zero hns)
  intro h
  have hdvd := addOrderOf_dvd_of_nsmul_eq_zero (zero_of_inf hlo h)
  rw [horder] at hdvd
  exact absurd (Nat.le_of_dvd hlo hdvd) (Nat.not_le.2 hhi)

/-- Settles O45: the multiple computed is affine, since the base point's order is n. -/
theorem deriveIsNeverInfinity : Obligations.DeriveIsNeverInfinity := by
  unfold Obligations.DeriveIsNeverInfinity
  intro rd ra s hlo hhi
  obtain ⟨q, hq, hqred, -⟩ := ecMul_ok reduced_basePoint s.f[ra.val].toNat
  refine ⟨_, exec_derive_of_valid hlo hhi hq rd, rfl, ?_⟩
  have hold := holdsPoint_commit_stageP s rd hqred
  cases q with
  | inf => exact absurd hq (ecMul_basePoint_ne_inf hlo hhi)
  | aff x y => exact hold.1

end Sys2Proof.Machine
end
